-- ==== Sys2Proof/Word.lean ====
section
/-! DEFINITION. The word types of the DShot engine core (spec rules R7, R9: every value is unsigned, bit 0 lowest). -/

namespace Sys2Proof

/-- A command word or a register, 32 bits (R33, R42). -/
abbrev Word := BitVec 32

/-- A command frame or a telemetry frame, 16 bits (R59, R75). -/
abbrev Frame := BitVec 16

/-- A raw GCR symbol, 20 bits (R67). -/
abbrev Raw := BitVec 20

/-- The twelve bits of a frame that are not its CRC (R54). -/
abbrev V12 := BitVec 12

/-- A logical or electrical line level: true is 1 (R83). -/
abbrev Level := Bool

end Sys2Proof
end

