-- ==== Sys2Proof/Syntax.lean ====
section
/-! DEFINITION. The thirteen operations of spec rules R3 and R50, one constructor for each row of spec/opcode_table.json,
with the fields of their formats (R44 to R49) at their exact widths. -/

namespace Sys2Proof

/-- The bitrate tiers (R20, R82). -/
inductive Rate where
  /-- 0: 150 kbit/s. -/
  | k150
  /-- 1: 300 kbit/s. -/
  | k300
  /-- 2: 600 kbit/s. -/
  | k600
  /-- 3: 1200 kbit/s. -/
  | k1200
  deriving DecidableEq, Repr

/-- FB's `ProtocolMode` (R20). -/
inductive Mode where
  /-- 0: Standard. -/
  | standard
  /-- 1: Bidirectional. -/
  | bidirectional
  deriving DecidableEq, Repr

/-- The operations (R3). An operand is always a field of the command word, unsigned and as it stands (R14, R52). -/
inductive Instr where
  /-- `CRC4 v12, inv` (R56). -/
  | crc4 (v12 : V12) (inv : Bool)
  /-- `ENC_THROTTLE value, t` (R60). -/
  | encThrottle (value : BitVec 16) (t : Bool)
  /-- `ENC_COMMAND value, t` (R62). -/
  | encCommand (value : BitVec 16) (t : Bool)
  /-- `DEC_FRAME w16` (R64). -/
  | decFrame (w16 : Frame)
  /-- `GCR_DECODE raw20` (R71). -/
  | gcrDecode (raw20 : Raw)
  /-- `GCR_ENCODE w16` (R73). -/
  | gcrEncode (w16 : BitVec 16)
  /-- `DEC_TELEMETRY w16` (R78). -/
  | decTelemetry (w16 : Frame)
  /-- `TX w16` (R85). -/
  | tx (w16 : Frame)
  /-- `RX` (R94). -/
  | rx
  /-- `CLASSIFY h` (R92). -/
  | classify (h : BitVec 16)
  /-- `CONFIG rate, mode, edt_adv, thresh` (R109). -/
  | config (rate : Rate) (mode : Mode) (edtAdv : Bool) (thresh : BitVec 8)
  /-- `CLAIM` (R111). -/
  | claim
  /-- `REINIT` (R112). -/
  | reinit
  deriving DecidableEq, Repr

end Sys2Proof
end

