-- ==== Sys2Proof/WellFormed.lean ====
section
/-! DEFINITION. Well-formed command words: the match and mask table of spec rule R50, a second description of the words that
are operations, independent of the decoder of R43. -/

namespace Sys2Proof

/-- One row of R50's table. -/
structure OpRow where
  mnemonic : String
  pattern  : Word
  mask     : Word
  deriving DecidableEq, Repr

/-- R50's table, row by row. -/
def opRows : List OpRow :=
  [⟨"CRC4", 0x10000000#32, 0xFFFFE000#32⟩,
   ⟨"ENC_THROTTLE", 0x20000000#32, 0xFFFE0000#32⟩,
   ⟨"ENC_COMMAND", 0x30000000#32, 0xFFFE0000#32⟩,
   ⟨"DEC_FRAME", 0x40000000#32, 0xFFFF0000#32⟩,
   ⟨"GCR_DECODE", 0x50000000#32, 0xFFF00000#32⟩,
   ⟨"GCR_ENCODE", 0x60000000#32, 0xFFFF0000#32⟩,
   ⟨"DEC_TELEMETRY", 0x70000000#32, 0xFFFF0000#32⟩,
   ⟨"TX", 0x80000000#32, 0xFFFF0000#32⟩,
   ⟨"RX", 0x90000000#32, 0xFFFFFFFF#32⟩,
   ⟨"CLASSIFY", 0xA0000000#32, 0xFFFF0000#32⟩,
   ⟨"CONFIG", 0xB0000000#32, 0xFFFF00F0#32⟩,
   ⟨"CLAIM", 0xC0000000#32, 0xFFFFFFFF#32⟩,
   ⟨"REINIT", 0xD0000000#32, 0xFFFFFFFF#32⟩]

/-- `w` spells the operation of row `r` (R50). -/
def OpRow.spells (r : OpRow) (w : Word) : Bool := (w &&& r.mask) == r.pattern

/-- A word is well formed when it spells some operation; any other word is illegal (R51). -/
def wordWellFormed (w : Word) : Bool := opRows.any fun r => r.spells w

/-- The mnemonic of an operation (R50). -/
def Instr.mnemonic : Instr → String
  | .crc4 _ _ => "CRC4"
  | .encThrottle _ _ => "ENC_THROTTLE"
  | .encCommand _ _ => "ENC_COMMAND"
  | .decFrame _ => "DEC_FRAME"
  | .gcrDecode _ => "GCR_DECODE"
  | .gcrEncode _ => "GCR_ENCODE"
  | .decTelemetry _ => "DEC_TELEMETRY"
  | .tx _ => "TX"
  | .rx => "RX"
  | .classify _ => "CLASSIFY"
  | .config _ _ _ _ => "CONFIG"
  | .claim => "CLAIM"
  | .reinit => "REINIT"

/-- Well-formed operations: every field has its exact width in the type, and every value of every field is encodable
(R44 to R49), so there is no ill-formed term of Instr. What can be ill formed is a word: `wordWellFormed`. -/
def Instr.wellFormed : Instr → Bool
  | .crc4 _ _ => true
  | .encThrottle _ _ => true
  | .encCommand _ _ => true
  | .decFrame _ => true
  | .gcrDecode _ => true
  | .gcrEncode _ => true
  | .decTelemetry _ => true
  | .tx _ => true
  | .rx => true
  | .classify _ => true
  | .config _ _ _ _ => true
  | .claim => true
  | .reinit => true

end Sys2Proof
end

