-- ==== Sys2Proof/Decode.lean ====
section
/-! DEFINITION. Decoding of command words (spec rules R42 to R52), total on all words and refusing by name, and the encoder
of R53. -/

namespace Sys2Proof

/-- Why a word is illegal (R43, R51). Both reasons end in `IllegalOp`. -/
inductive DecodeReject where
  /-- Opcode 0, 14 or 15. -/
  | illegalOpcode
  /-- A reserved bit of the operation's format is 1. -/
  | reservedBitSet
  deriving DecidableEq, Repr

/-- The six operand formats (R44 to R49). -/
inductive Format where
  | n | v | w | g | c | k
  deriving DecidableEq, Repr

/-- The reserved bits of a format: the operand bits it does not name (R42, R44 to R49). -/
def Format.reserved : Format → Word
  | .n => 0x0FFFFFFF#32
  | .v => 0x0FFE0000#32
  | .w => 0x0FFF0000#32
  | .g => 0x0FF00000#32
  | .c => 0x0FFFE000#32
  | .k => 0x0FFF00F0#32

/-- `RATE`, two bits (R20, R49). -/
def Rate.ofCode (c : BitVec 2) : Rate :=
  match c.toNat with
  | 0 => .k150
  | 1 => .k300
  | 2 => .k600
  | _ => .k1200

/-- The code of a tier (R20). -/
def Rate.code : Rate → BitVec 2
  | .k150 => 0#2
  | .k300 => 1#2
  | .k600 => 2#2
  | .k1200 => 3#2

/-- `MODE`, one bit (R20, R49). -/
def Mode.ofBit (b : Bool) : Mode := if b then .bidirectional else .standard

/-- The bit of a mode (R20). -/
def Mode.bit : Mode → Bool
  | .standard => false
  | .bidirectional => true

/-- Bits 31:28 (R42). -/
def opcodeOf (w : Word) : BitVec 4 := w.extractLsb' 28 4

/-- Bits 15:0 (R45, R46). -/
def low16 (w : Word) : BitVec 16 := w.extractLsb' 0 16

/-- R50's opcode map: the format of `w`'s opcode and the operation with its fields taken as they stand (R44 to R49, R52);
none for opcodes 0, 14 and 15. -/
def operationOf (w : Word) : Option (Format × Instr) :=
  match (opcodeOf w).toNat with
  | 1 => some (.c, .crc4 (w.extractLsb' 0 12) (w.getLsbD 12))
  | 2 => some (.v, .encThrottle (low16 w) (w.getLsbD 16))
  | 3 => some (.v, .encCommand (low16 w) (w.getLsbD 16))
  | 4 => some (.w, .decFrame (low16 w))
  | 5 => some (.g, .gcrDecode (w.extractLsb' 0 20))
  | 6 => some (.w, .gcrEncode (low16 w))
  | 7 => some (.w, .decTelemetry (low16 w))
  | 8 => some (.w, .tx (low16 w))
  | 9 => some (.n, .rx)
  | 10 => some (.w, .classify (low16 w))
  | 11 => some (.k, .config (Rate.ofCode (w.extractLsb' 0 2)) (Mode.ofBit (w.getLsbD 2)) (w.getLsbD 3) (w.extractLsb' 8 8))
  | 12 => some (.n, .claim)
  | 13 => some (.n, .reinit)
  | _ => none

/-- R43: the opcode first, then the reserved bits, then the fields. -/
def decode (w : Word) : Except DecodeReject Instr :=
  match operationOf w with
  | none => .error .illegalOpcode
  | some (f, i) => if w &&& f.reserved = 0#32 then .ok i else .error .reservedBitSet

/-- Format N (R44). -/
def encodeN (op : BitVec 4) : Word := op ++ 0#28

/-- Format V (R45). -/
def encodeV (op : BitVec 4) (value : BitVec 16) (t : Bool) : Word := op ++ 0#11 ++ BitVec.ofBool t ++ value

/-- Format W (R46). -/
def encodeW (op : BitVec 4) (w16 : BitVec 16) : Word := op ++ 0#12 ++ w16

/-- Format G (R47). -/
def encodeG (op : BitVec 4) (raw20 : Raw) : Word := op ++ 0#8 ++ raw20

/-- Format C (R48). -/
def encodeC (op : BitVec 4) (v12 : V12) (inv : Bool) : Word := op ++ 0#15 ++ BitVec.ofBool inv ++ v12

/-- Format K (R49). -/
def encodeK (op : BitVec 4) (rate : Rate) (mode : Mode) (edtAdv : Bool) (thresh : BitVec 8) : Word :=
  op ++ 0#12 ++ thresh ++ 0#4 ++ BitVec.ofBool edtAdv ++ BitVec.ofBool mode.bit ++ rate.code

/-- The word of an operation (R50, R53). -/
def encode : Instr → Word
  | .crc4 v12 inv => encodeC 0x1#4 v12 inv
  | .encThrottle value t => encodeV 0x2#4 value t
  | .encCommand value t => encodeV 0x3#4 value t
  | .decFrame w16 => encodeW 0x4#4 w16
  | .gcrDecode raw20 => encodeG 0x5#4 raw20
  | .gcrEncode w16 => encodeW 0x6#4 w16
  | .decTelemetry w16 => encodeW 0x7#4 w16
  | .tx w16 => encodeW 0x8#4 w16
  | .rx => encodeN 0x9#4
  | .classify h => encodeW 0xA#4 h
  | .config rate mode edtAdv thresh => encodeK 0xB#4 rate mode edtAdv thresh
  | .claim => encodeN 0xC#4
  | .reinit => encodeN 0xD#4

/-- A command word given as a number: bits at `nbits` and above are 0. -/
def tableWord (nbits w : Nat) : Word := BitVec.ofNat 32 (w % 2 ^ nbits)

/-- What the decoder reads from a word numbered as spec/opcode_table.json numbers it; none where it refuses. -/
def decodeTableWord (nbits w : Nat) : Option Instr :=
  match decode (tableWord nbits w) with
  | .ok i => some i
  | .error _ => none

end Sys2Proof
end

