-- ==== Sys2Proof/Config.lean ====
section
/-! DEFINITION. The implementation parameters of spec rule R7 as one configuration record, `Build`, which every operation,
tick and clock period takes as an argument; the values a build may have, `Build.Legal`; and `build`, the one build whose
machine the host runs. In `build` the parameters that the spec fixes or decides have its values, and those without any
default are opaque constants, of which no proof can see a value (assumption logs 5 and 19). `FRAME_BITS`, `PAYLOAD_BITS`,
`CRC_BITS`, `GCR_RAW_BITS` and the widths of the two counters are the widths of types (Word.lean, State), `RATES` is the
type Rate. -/

namespace Sys2Proof.Config

/-- The identity string of R2: a name for the configuration, without meaning to the hardware. -/
def identity : String := "DSHOT-CORE/FB-v7"

/-- The configuration record of R7. -/
structure Build where
  /-- `THROTTLE_MIN`. -/
  throttleMin  : Nat
  /-- `THROTTLE_MAX`. -/
  throttleMax  : Nat
  /-- `CMD_MIN`. -/
  cmdMin       : Nat
  /-- `CMD_MAX`. -/
  cmdMax       : Nat
  /-- `RX_CELLS`: one start cell and the cells of a symbol. -/
  rxCells      : Nat
  /-- `MIN_BIDIR_RATE`, bit/s: the lowest tier allowed in Bidirectional mode. -/
  minBidirRate : Nat
  /-- `RX_RATE_NUM`: the telemetry bitrate over the command bitrate is `RX_RATE_NUM / RX_RATE_DEN`. -/
  rxRateNum    : Nat
  /-- `RX_RATE_DEN`. -/
  rxRateDen    : Nat
  /-- `JITTER_TOL` as one part in so many: 10 % is one part in 10. -/
  jitterParts  : Nat
  /-- `F_CLK_HZ`: the block's one clock. -/
  fClkHz       : Nat
  /-- `T_SWITCH_TICKS`: the switching delay. -/
  tSwitch      : Nat
  /-- `T_TRAIL_TICKS`: the trailing idle period. -/
  tTrail       : Nat
  /-- `T_RX_TIMEOUT_TICKS`: how long RX waits for the start edge. -/
  tRxTimeout   : Nat
  /-- `GCR_TABLE`: nibble to quintet. -/
  gcrTable     : BitVec 4 → BitVec 5
  /-- `EDT_BIT`: the frame bit that tells EDT from eRPM. -/
  edtBit       : Nat
  /-- `EDT_COMMANDS`: the commands refused unless EDT support was advertised. -/
  edtCommands  : Nat → Bool

/-- The builds the spec speaks of: FB's values and the decided ones that no list calls open (R7), and the constraints that
spec/92_eei_decisions.md gives for the parameters it leaves open. That the clock is a multiple of 48 MHz and the switching
delay not 0 is DEDUCED (assumption log 19). -/
structure Build.Legal (P : Build) : Prop where
  throttleMin  : P.throttleMin = 48
  throttleMax  : P.throttleMax = 2047
  cmdMin       : P.cmdMin = 1
  cmdMax       : P.cmdMax = 47
  rxCells      : P.rxCells = 21
  minBidirRate : P.minBidirRate = 300000
  rxRateNum    : P.rxRateNum = 5
  rxRateDen    : P.rxRateDen = 4
  jitterParts  : P.jitterParts = 10
  fClkHz       : 0 < P.fClkHz ∧ P.fClkHz % 48000000 = 0
  tSwitch      : 1 ≤ P.tSwitch
  tRxTimeout   : 1 ≤ P.tRxTimeout
  gcrTable     : ∀ a b, P.gcrTable a = P.gcrTable b → a = b
  edtBit       : 4 ≤ P.edtBit ∧ P.edtBit ≤ 15
  edtCommands  : ∀ v, P.edtCommands v = true → 1 ≤ v ∧ v ≤ 47

/-- `T_TRAIL_TICKS` of the build: OPEN, any natural number, 0 allowed (R7, R90). -/
opaque tTrail : Nat

/-- `T_RX_TIMEOUT_TICKS` of the build less 1: OPEN (R7, R98). -/
opaque tRxTimeoutPred : Nat

/-- `T_RX_TIMEOUT_TICKS` of the build (R7, R98): OPEN, a natural number ≥ 1. -/
def tRxTimeout : Nat := tRxTimeoutPred + 1

/-- Which values the build puts into `EDT_COMMANDS`: OPEN (R7, R62). -/
opaque edtCommandChoice : Nat → Bool

/-- Membership in the build's `EDT_COMMANDS`, a subset of 1..47 (R7, R62). -/
def isEdtCommand (v : Nat) : Bool := decide (1 ≤ v) && decide (v ≤ 47) && edtCommandChoice v

/-- The `GCR_TABLE` of R68: supplied from general knowledge, not from FB (assumption log 6). -/
def gcrTable (n : BitVec 4) : BitVec 5 :=
  match n.toNat with
  | 0 => 0x19#5
  | 1 => 0x1B#5
  | 2 => 0x12#5
  | 3 => 0x13#5
  | 4 => 0x1D#5
  | 5 => 0x15#5
  | 6 => 0x16#5
  | 7 => 0x17#5
  | 8 => 0x1A#5
  | 9 => 0x09#5
  | 10 => 0x0A#5
  | 11 => 0x0B#5
  | 12 => 0x1E#5
  | 13 => 0x0D#5
  | 14 => 0x0E#5
  | _ => 0x0F#5

/-- The build whose machine is `step`: R7's values, with the decided defaults for the clock (D3), the switching delay (D10),
`EDT_BIT` (D12; FB flags it as unverified, assumption log 7) and the table, and no value for the rest. -/
def build : Build where
  throttleMin  := 48
  throttleMax  := 2047
  cmdMin       := 1
  cmdMax       := 47
  rxCells      := 21
  minBidirRate := 300000
  rxRateNum    := 5
  rxRateDen    := 4
  jitterParts  := 10
  fClkHz       := 48000000
  tSwitch      := 1440
  tTrail       := tTrail
  tRxTimeout   := tRxTimeout
  gcrTable     := gcrTable
  edtBit       := 14
  edtCommands  := isEdtCommand

end Sys2Proof.Config
end

