-- ==== Sys2Proof/Machine/State.lean ====
section
/-! DEFINITION. The state of one block (spec rule R13), the host and the environment it reads (R25, R26, R34), the reasons a
step can stop, and the state after reset (R27). -/

namespace Sys2Proof.Machine

/-- The driver phase, STATUS[12:10] (R23). Codes 6 and 7 are never held. -/
inductive Phase where
  /-- 0: between operations. -/
  | idle
  /-- 1: putting the 16 bits on the line. -/
  | tx
  /-- 2: holding the idle level for `T_TRAIL_TICKS`. -/
  | trail
  /-- 3: waiting `T_SWITCH_TICKS` with the line released. -/
  | switch
  /-- 4: waiting up to `T_RX_TIMEOUT_TICKS` for the start edge. -/
  | listen
  /-- 5: recording samples for `W(rate)` ticks. -/
  | capture
  deriving DecidableEq, Repr

/-- The errors and their codes in STATUS.ERRCODE (R115). -/
inductive ErrCode where
  /-- 0. -/
  | none
  /-- 1. -/
  | invalidPayload
  /-- 2. -/
  | crcMismatch
  /-- 3. -/
  | gcrFraming
  /-- 4. -/
  | timeout
  /-- 5. -/
  | framingError
  /-- 6. -/
  | resourceBusy
  /-- 7: the host's, never raised by the block. -/
  | armTimeout
  /-- 8: the host's number for the `fault` flag, never an operation's error. -/
  | channelFault
  /-- 9. -/
  | invalidConfig
  /-- 10. -/
  | illegalOp
  deriving DecidableEq, Repr

/-- What the host does next at the command port (R34, R53). -/
inductive HostAct where
  /-- Present this word and hold it until it is accepted. -/
  | submit (w : Word)
  /-- `TX $R` of R53's pseudo-operations: if the last operation ended without error, present the TX word of the low 16 bits
  of RESULT and hold it until it is accepted; otherwise present nothing. -/
  | txResult
  /-- Present nothing for one tick. -/
  | wait
  deriving DecidableEq, Repr

/-- The other input pins in one tick (R25). -/
structure TickIn where
  /-- The reset pin, sampled at the tick's closing edge (R131). -/
  rst    : Bool
  /-- The electrical level of the wire (R25). -/
  lineIn : Level
  /-- The register index on the register port (R25). -/
  regIdx : BitVec 3
  deriving DecidableEq, Repr

/-- The record of R13, in its order, and after it the two lists of inputs still to come, which the spec calls parameters of
the step relation (R26; assumption log 1). -/
structure State where
  /-- Bitrate tier, CFG[1:0]. -/
  rate    : Rate
  /-- CFG[2]. -/
  mode    : Mode
  /-- The channel has advertised EDT support, CFG[3]. -/
  edtAdv  : Bool
  /-- Consecutive-CRC-failure threshold, CFG[15:8]; 0 means never fault. -/
  thresh  : BitVec 8
  /-- STATUS[0]: an operation is in progress. -/
  busy    : Bool
  /-- STATUS[1]: the last accepted operation has completed. -/
  done    : Bool
  /-- STATUS[2]: the last completed operation ended in an error. -/
  err     : Bool
  /-- STATUS[7:4]. -/
  errcode : ErrCode
  /-- STATUS[8]: the sticky `ChannelFault`. -/
  fault   : Bool
  /-- STATUS[9]: the waveform generator has been claimed. -/
  owned   : Bool
  /-- STATUS[12:10]. -/
  phase   : Phase
  /-- RESULT. -/
  result  : Word
  /-- CRC_FAIL[7:0], saturating. -/
  crcFail : BitVec 8
  /-- DISCARD[15:0], saturating. -/
  discard : BitVec 16
  /-- Hidden: the frame being transmitted. -/
  shreg   : Frame
  /-- Hidden: the index of the frame bit on the line. -/
  bitIdx  : BitVec 4
  /-- Hidden: ticks elapsed in the current bit or wait (R124). -/
  cnt     : Nat
  /-- Hidden: the electrical levels captured since the start edge, oldest first. -/
  samples : List Level
  /-- Output pin: the electrical level driven. -/
  lineOut : Level
  /-- Output pin: true drives the line, false releases it. -/
  lineOe  : Bool
  /-- MODEL'S OWN: what the host has still to do, next first. -/
  host    : List HostAct
  /-- MODEL'S OWN: the other input pins in the ticks to come, next first. -/
  env     : List TickIn
  deriving DecidableEq, Repr

/-- Why the machine stops with a fault. -/
inductive Fault where
  /-- Raised by `clockPeriod` in a state with `busy` ≠ (`phase` ≠ IDLE), which R29 says is never reached. Safe: no run from
  reset meets it. -/
  | busyDisagreesWithPhase
  deriving DecidableEq, Repr

/-- Why an instruction is refused. -/
inductive Refusal where
  /-- For an arm of `exec` without a meaning; no arm of this model raises it. Safe: it stops where the hardware goes on. -/
  | notModelled (mnemonic : String)
  deriving DecidableEq, Repr

/-- The state after reset (R27, R131). The hidden working state, which R27 leaves unspecified, is 0 (assumption log 3). -/
def State.reset : State where
  rate    := .k150
  mode    := .standard
  edtAdv  := false
  thresh  := 0#8
  busy    := false
  done    := false
  err     := false
  errcode := .none
  fault   := false
  owned   := false
  phase   := .idle
  result  := 0#32
  crcFail := 0#8
  discard := 0#16
  shreg   := 0#16
  bitIdx  := 0#4
  cnt     := 0
  samples := []
  lineOut := false
  lineOe  := true
  host    := []
  env     := []

end Sys2Proof.Machine
end

