-- ==== Sys2Proof/Machine/Operands.lean ====
section
/-! DEFINITION. The fields of the frames an operand holds, the numbers made of operands, and the layouts of RESULT (spec
rules R9, R15, R52, R59, R75, R76). -/

namespace Sys2Proof.Machine

/-- Bits 15:4 of either frame (R54). -/
def v12Of (f : Frame) : V12 := f.extractLsb' 4 12

/-- Bits 3:0 of either frame, its CRC nibble (R59, R75). -/
def crcOf (f : Frame) : BitVec 4 := f.extractLsb' 0 4

/-- Bits 15:5 of a command frame (R59). -/
def payloadOf (f : Frame) : BitVec 11 := f.extractLsb' 5 11

/-- Bit 4 of a command frame (R59). -/
def tflagOf (f : Frame) : Bool := f.getLsbD 4

/-- Bits 15:13 of a telemetry frame (R75). -/
def exponentOf (f : Frame) : BitVec 3 := f.extractLsb' 13 3

/-- Bits 12:4 of a telemetry frame (R75). -/
def mantissaOf (f : Frame) : BitVec 9 := f.extractLsb' 4 9

/-- Bits 15:12 of an EDT frame (R76). -/
def edtTypeOf (f : Frame) : BitVec 4 := f.extractLsb' 12 4

/-- Bits 11:4 of an EDT frame (R76). -/
def edtDataOf (f : Frame) : BitVec 8 := f.extractLsb' 4 8

/-- The low eleven bits of a V-format value (R60, R62). -/
def payloadOfValue (value : BitVec 16) : BitVec 11 := value.extractLsb' 0 11

/-- The bitrate of a tier, bit/s (R20, R82). -/
def bitrate : Rate → Nat
  | .k150 => 150000
  | .k300 => 300000
  | .k600 => 600000
  | .k1200 => 1200000

/-- `|a - b|` of R91 and R99, on naturals. -/
def absDiff (a b : Nat) : Nat := (a - b) + (b - a)

/-- `within_tol(d, T)` (R91): `d` is within `JITTER_TOL` of `T`, the ends included. -/
def withinTol (P : Config.Build) (d T : Nat) : Bool := decide (P.jitterParts * absDiff d T ≤ T)

/-- `min(x + 1, cap)` for a counter of `n` bits whose cap is its largest value (R21, R22, R104). -/
def satIncr {n : Nat} (x : BitVec n) : BitVec n := BitVec.ofNat n (min (x.toNat + 1) (2 ^ n - 1))

/-- RESULT of `DEC_FRAME` (R15, R64): class, flag, payload in bits 13:12, 11, 10:0. -/
def decFrameResult (cls : BitVec 2) (t : Bool) (p : BitVec 11) : Word :=
  0#18 ++ cls ++ BitVec.ofBool t ++ p

/-- RESULT of an eRPM period (R15, R78): kind 1. -/
def erpmResult (period : BitVec 16) : Word := 0#14 ++ 1#2 ++ period

/-- RESULT of an EDT frame (R15, R78): kind 2. -/
def edtResult (ty : BitVec 4) (data : BitVec 8) : Word := 0#14 ++ 2#2 ++ 0#4 ++ ty ++ data

/-- The low 16 bits of RESULT, `$R` of R53. -/
def resultLow (w : Word) : Frame := w.extractLsb' 0 16

end Sys2Proof.Machine
end

