-- ==== Sys2Proof/Machine/Flags.lean ====
section
/-! DEFINITION. The flags and registers as the host sees them: the codes of phases and errors (spec rules R23, R115), the
layouts of STATUS, CFG, CRC_FAIL and DISCARD (R19 to R22), and the rule of the sticky fault (R105). -/

namespace Sys2Proof.Machine

/-- The code of a phase in STATUS[12:10] (R23). -/
def Phase.code : Phase → BitVec 3
  | .idle => 0#3
  | .tx => 1#3
  | .trail => 2#3
  | .switch => 3#3
  | .listen => 4#3
  | .capture => 5#3

/-- The code of an error in STATUS[7:4] (R115). -/
def ErrCode.code : ErrCode → BitVec 4
  | .none => 0#4
  | .invalidPayload => 1#4
  | .crcMismatch => 2#4
  | .gcrFraming => 3#4
  | .timeout => 4#4
  | .framingError => 5#4
  | .resourceBusy => 6#4
  | .armTimeout => 7#4
  | .channelFault => 8#4
  | .invalidConfig => 9#4
  | .illegalOp => 10#4

/-- Is the driver between operations? -/
def State.inIdle (s : State) : Bool := decide (s.phase = .idle)

/-- STATUS, index 0 (R19). -/
def State.statusWord (s : State) : Word :=
  0#19 ++ s.phase.code ++ BitVec.ofBool s.owned ++ BitVec.ofBool s.fault ++ s.errcode.code ++ 0#1 ++
    BitVec.ofBool s.err ++ BitVec.ofBool s.done ++ BitVec.ofBool s.busy

/-- CFG, index 2 (R20). -/
def State.cfgWord (s : State) : Word :=
  0#16 ++ s.thresh ++ 0#4 ++ BitVec.ofBool s.edtAdv ++ BitVec.ofBool s.mode.bit ++ s.rate.code

/-- CRC_FAIL, index 3 (R21). -/
def State.crcFailWord (s : State) : Word := 0#24 ++ s.crcFail

/-- DISCARD, index 4 (R22). -/
def State.discardWord (s : State) : Word := 0#16 ++ s.discard

/-- Does a count of consecutive CRC failures trip a threshold (R105)? A threshold of 0 is disabled. -/
def tripsFault (thresh crcFail : BitVec 8) : Bool := thresh != 0#8 && decide (thresh ≤ crcFail)

end Sys2Proof.Machine
end

