-- ==== Sys2Proof/Machine/Ops.lean ====
section
/-! DEFINITION. The shared operations on State: the host primitives RegRead and Submit (spec rules R33, R34), completion
and `raise` (R119, R120), the line (R83, R84), the pins (R25), reset (R131) and the inputs of a tick. -/

namespace Sys2Proof.Machine

/-- `RegRead(i)` (R33, R18): the 32-bit content of register index `i`, in any phase, changing nothing. -/
def State.regRead (s : State) (i : BitVec 3) : Word :=
  match i.toNat with
  | 0 => s.statusWord
  | 1 => s.result
  | 2 => s.cfgWord
  | 3 => s.crcFailWord
  | 4 => s.discardWord
  | _ => 0#32

/-- `line <- L` (R83, R84): drive the logical level `L`. -/
def State.drive (s : State) (L : Level) : State := { s with lineOe := true, lineOut := L ^^ s.mode.bit }

/-- Release the line; `line_out` is then not driven and keeps its level (R84; assumption log 4). -/
def State.release (s : State) : State := { s with lineOe := false }

/-- Completion without error (R120). -/
def State.complete (s : State) (r : Word) : State :=
  { s with result := r, err := false, errcode := .none, done := true, busy := false, phase := .idle }

/-- `raise e` (R119): THE one way an operation ends in an error. Nothing is saved, nothing is masked, control goes nowhere;
the host learns of it from STATUS, and the next accepted word clears it (R121), which is all the return there is. -/
def State.raise (s : State) (e : ErrCode) : State :=
  { s with result := 0#32, err := true, errcode := e, done := true, busy := false, phase := .idle }

/-- What accepting a word clears, whatever the word is (R34, R121). -/
def State.clearStatus (s : State) : State := { s with done := false, err := false, errcode := .none }

/-- Reset (R27, R131, R132): every piece of the block's state, whatever it was doing. The host and the environment are not
in the block and go on. -/
def State.resetBlock (s : State) : State := { State.reset with host := s.host, env := s.env }

/-- The input pins of a tick when the environment's list has ended: no reset, and a line nobody drives, which reads 1
(R25; assumption log 2). -/
def TickIn.quiet : TickIn := ⟨false, true, 0#3⟩

/-- The input pins of the coming tick. -/
def State.pins (s : State) : TickIn := s.env.head?.getD TickIn.quiet

/-- The command word on the port in the coming tick, if `cmd_valid` is 1 (R25, R34). -/
def State.presented (s : State) : Option Word :=
  match s.host with
  | .submit w :: _ => some w
  | .txResult :: _ => if s.err then none else some (encode (.tx (resultLow s.result)))
  | .wait :: _ => none
  | [] => none

/-- What is left of the host's list after a tick in which no word was accepted: a word it holds stays (R34), a tick it
waited is over, a `TX $R` after an error is skipped (R53). -/
def State.hostLater (s : State) : List HostAct :=
  match s.host with
  | .submit w :: h => .submit w :: h
  | .txResult :: h => if s.err then h else .txResult :: h
  | .wait :: h => h
  | [] => []

/-- The passing of one tick for the host and the environment, no word being accepted. -/
def State.advance (s : State) : State := { s with host := s.hostLater, env := s.env.tail }

/-- The passing of the tick in which the presented word is accepted, exactly once (R34): the block drives the idle level as in
every idle tick (R84) and the status is cleared. -/
def State.accepted (s : State) : State :=
  ({ s with host := s.host.tail, env := s.env.tail }.drive false).clearStatus

/-- `cmd_ready` (R17, R25). -/
def State.cmdReady (s : State) : Bool := !s.busy

/-- `reg_rdata` (R25, R33): what the register port shows in the coming tick. -/
def State.regRdata (s : State) : Word := s.regRead s.pins.regIdx

/-- The output pin `done` (R25, R117). -/
def State.donePin (s : State) : Bool := s.done

/-- The output pin `alarm` (R25, R117). -/
def State.alarm (s : State) : Bool := s.fault

/-- The level the block puts on the wire, none while it has released it (R25, R84). -/
def State.driven (s : State) : Option Level := if s.lineOe then some s.lineOut else none

/-- `s` with the word `w` at the command port, ready to be accepted in the coming tick: the host presents it before anything
else, the block is between operations and the reset pin is low (assumption log 16). -/
def State.placeWord (s : State) (w : Word) : State :=
  { s with
    host := .submit w :: s.host
    busy := false
    phase := .idle
    env := match s.env with
      | [] => []
      | p :: ps => { p with rst := false } :: ps }

/-- The host acts of R53's pseudo-operation `SEND_THROTTLE value, t`. -/
def pseudoSendThrottle (value : BitVec 16) (t : Bool) : List HostAct :=
  [.submit (encode (.encThrottle value t)), .txResult]

/-- The host acts of R53's pseudo-operation `SEND_COMMAND value, t`. -/
def pseudoSendCommand (value : BitVec 16) (t : Bool) : List HostAct :=
  [.submit (encode (.encCommand value t)), .txResult]

/-- The host acts of R53's pseudo-operation `STOP` (R146). -/
def pseudoStop : List HostAct := [.submit (encode (.encThrottle 0#16 false)), .txResult]

/-- The host acts of R53's pseudo-operation `POLL`. -/
def pseudoPoll : List HostAct := [.submit (encode .rx)]

end Sys2Proof.Machine
end

