-- ==== Sys2Proof/Machine/Control.lean ====
section
/-! DEFINITION. The control operations CONFIG, CLAIM and REINIT (spec rules R109 to R112). -/

namespace Sys2Proof.Machine

/-- The configurations that are accepted (R20, R109): not Bidirectional below `MIN_BIDIR_RATE`, that is at 150 kbit/s. -/
def configLegal (P : Config.Build) (rate : Rate) (mode : Mode) : Bool :=
  !(decide (mode = .bidirectional) && decide (bitrate rate < P.minBidirRate))

/-- CONFIG (R109, R110) in a build: all four fields at once or none, then the idle level of the new mode. -/
def configIn (P : Config.Build) (rate : Rate) (mode : Mode) (edtAdv : Bool) (thresh : BitVec 8) (s : State) :
    Host.Outcome State Fault Refusal :=
  if !configLegal P rate mode then .next (s.raise .invalidConfig)
  else .next (({ s with rate := rate, mode := mode, edtAdv := edtAdv, thresh := thresh }.drive false).complete 0#32)

/-- CONFIG (R109, R110). -/
def execConfig (rate : Rate) (mode : Mode) (edtAdv : Bool) (thresh : BitVec 8) (s : State) :
    Host.Outcome State Fault Refusal :=
  configIn Config.build rate mode edtAdv thresh s

/-- CLAIM (R111). -/
def execClaim (s : State) : Host.Outcome State Fault Refusal :=
  if s.owned then .next (s.raise .resourceBusy) else .next ({ s with owned := true }.complete 0#32)

/-- REINIT (R112). -/
def execReinit (s : State) : Host.Outcome State Fault Refusal :=
  .next ({ s with fault := false, crcFail := 0#8, discard := 0#16 }.complete 0#32)

end Sys2Proof.Machine
end

