-- ==== Sys2Proof/Machine/Gcr.lean ====
section
/-! DEFINITION. The GCR decoder and encoder: GCR_DECODE, GCR_ENCODE (spec rules R67 to R74), for any table of quintets
and then for the table of a build. -/

namespace Sys2Proof.Machine

/-- The sixteen nibbles. -/
def nibbles : List (BitVec 4) := (List.range 16).map (BitVec.ofNat 4)

/-- `gcr_gray(raw)` (R74): levels to transitions. -/
def gcrGray (raw : Raw) : Raw := raw ^^^ (raw >>> 1)

/-- `gcr_ungray(g)` (R72): bit `i` is the exclusive-or of `g[19]` down to `g[i]`. -/
def gcrUngray (g : Raw) : Raw := (List.range 20).foldl (fun acc k => acc ^^^ (g >>> k)) 0#20

/-- `GCR_INV[q]` (R69), none for invalid: the nibble whose quintet in the table `T` is `q`. -/
def gcrInv (T : BitVec 4 → BitVec 5) (q : BitVec 5) : Option (BitVec 4) := nibbles.find? fun n => T n == q

/-- `gcr_decode(raw)` (R70) for the table `T`; none is `GcrFraming`. -/
def gcrDecodeWith (T : BitVec 4 → BitVec 5) (raw : Raw) : Option Frame :=
  let g := gcrGray raw
  match gcrInv T (g.extractLsb' 15 5), gcrInv T (g.extractLsb' 10 5), gcrInv T (g.extractLsb' 5 5),
      gcrInv T (g.extractLsb' 0 5) with
  | some n3, some n2, some n1, some n0 => some (n3 ++ n2 ++ n1 ++ n0)
  | _, _, _, _ => none

/-- `gcr_encode` (R73) for the table `T`. -/
def gcrEncodeWith (T : BitVec 4 → BitVec 5) (w : Frame) : Raw :=
  gcrUngray (T (w.extractLsb' 12 4) ++ T (w.extractLsb' 8 4) ++ T (w.extractLsb' 4 4) ++ T (w.extractLsb' 0 4))

/-- GCR_DECODE (R71) in a build. It reads no state. -/
def gcrDecodeIn (P : Config.Build) (raw20 : Raw) (s : State) : Host.Outcome State Fault Refusal :=
  match gcrDecodeWith P.gcrTable raw20 with
  | none => .next (s.raise .gcrFraming)
  | some x => .next (s.complete (x.setWidth 32))

/-- GCR_DECODE (R71). -/
def execGcrDecode (raw20 : Raw) (s : State) : Host.Outcome State Fault Refusal := gcrDecodeIn Config.build raw20 s

/-- GCR_ENCODE (R73) in a build. It reads no state. -/
def gcrEncodeIn (P : Config.Build) (w16 : BitVec 16) (s : State) : Host.Outcome State Fault Refusal :=
  .next (s.complete ((gcrEncodeWith P.gcrTable w16).setWidth 32))

/-- GCR_ENCODE (R73). -/
def execGcrEncode (w16 : BitVec 16) (s : State) : Host.Outcome State Fault Refusal := gcrEncodeIn Config.build w16 s

end Sys2Proof.Machine
end

