-- ==== Sys2Proof/Machine/Crc.lean ====
section
/-! DEFINITION. The CRC-4 generator and the operation CRC4 (spec rules R54 to R57). -/

namespace Sys2Proof.Machine

/-- `crc4(v)` (R54). -/
def crc4 (v : V12) : BitVec 4 := ((v ^^^ (v >>> 4) ^^^ (v >>> 8)) &&& 0xF#12).setWidth 4

/-- `crc4_tx(v, mode)` (R55): inverted in Bidirectional mode. -/
def crc4Tx (v : V12) : Mode → BitVec 4
  | .standard => crc4 v
  | .bidirectional => crc4 v ^^^ 0xF#4

/-- CRC4 (R56). It reads no state. -/
def execCrc4 (v12 : V12) (inv : Bool) (s : State) : Host.Outcome State Fault Refusal :=
  let c := crc4 v12
  .next (s.complete ((if inv then c ^^^ 0xF#4 else c).setWidth 32))

end Sys2Proof.Machine
end

