-- ==== Sys2Proof/Machine/Telemetry.lean ====
section
/-! DEFINITION. The telemetry-frame decoder and DEC_TELEMETRY (spec rules R75 to R80). -/

namespace Sys2Proof.Machine

/-- A decoded telemetry frame (R77). -/
inductive Telemetry where
  | erpm (period : BitVec 16)
  | edt (ty : BitVec 4) (data : BitVec 8)
  deriving DecidableEq, Repr

/-- The period (R77, R79): `m << e`, 16 bits. -/
def periodOf (w : Frame) : BitVec 16 := (mantissaOf w).setWidth 16 <<< (exponentOf w).toNat

/-- `tlm_decode(w)` (R77) with the EDT discriminator at bit `edtBit`; none is `CrcMismatch`. The CRC is uninverted in both
modes (R75, R80). -/
def tlmDecodeWith (edtBit : Nat) (w : Frame) : Option Telemetry :=
  if crcOf w != crc4 (v12Of w) then none
  else if w.getLsbD edtBit then some (.erpm (periodOf w))
  else some (.edt (edtTypeOf w) (edtDataOf w))

/-- RESULT for a decoded frame (R15, R78). -/
def Telemetry.resultWord : Telemetry → Word
  | .erpm period => erpmResult period
  | .edt ty data => edtResult ty data

/-- DEC_TELEMETRY (R78) in a build. It reads no state. -/
def decTelemetryIn (P : Config.Build) (w16 : Frame) (s : State) : Host.Outcome State Fault Refusal :=
  match tlmDecodeWith P.edtBit w16 with
  | none => .next (s.raise .crcMismatch)
  | some d => .next (s.complete d.resultWord)

/-- DEC_TELEMETRY (R78). -/
def execDecTelemetry (w16 : Frame) (s : State) : Host.Outcome State Fault Refusal := decTelemetryIn Config.build w16 s

end Sys2Proof.Machine
end

