-- ==== Sys2Proof/Machine/FrameCodec.lean ====
section
/-! DEFINITION. The command-frame encoder and decoder: ENC_THROTTLE, ENC_COMMAND, DEC_FRAME (spec rules R58 to R66). -/

namespace Sys2Proof.Machine

/-- `mk_frame(p, t, mode)` (R58). -/
def mkFrame (p : BitVec 11) (t : Bool) (mode : Mode) : Frame :=
  let v : V12 := p ++ BitVec.ofBool t
  v ++ crc4Tx v mode

/-- Has a command frame the CRC of this mode (R59)? -/
def frameValid (mode : Mode) (f : Frame) : Bool := crcOf f == crc4Tx (v12Of f) mode

/-- What `ENC_THROTTLE` accepts (R60, R61). -/
def throttleValue (P : Config.Build) (value : BitVec 16) : Bool :=
  value == 0#16 || (decide (P.throttleMin ≤ value.toNat) && decide (value.toNat ≤ P.throttleMax))

/-- What `ENC_COMMAND` accepts by its range (R61, R62). -/
def commandValue (P : Config.Build) (value : BitVec 16) : Bool :=
  decide (P.cmdMin ≤ value.toNat) && decide (value.toNat ≤ P.cmdMax)

/-- The class of a payload (R61, R64). -/
def classOf (P : Config.Build) (p : BitVec 11) : BitVec 2 :=
  if p = 0#11 then 0#2 else if p.toNat ≤ P.cmdMax then 1#2 else 2#2

/-- ENC_THROTTLE (R60) in a build. -/
def encThrottleIn (P : Config.Build) (value : BitVec 16) (t : Bool) (s : State) : Host.Outcome State Fault Refusal :=
  if throttleValue P value then .next (s.complete ((mkFrame (payloadOfValue value) t s.mode).setWidth 32))
  else .next (s.raise .invalidPayload)

/-- ENC_THROTTLE (R60). -/
def execEncThrottle (value : BitVec 16) (t : Bool) (s : State) : Host.Outcome State Fault Refusal :=
  encThrottleIn Config.build value t s

/-- ENC_COMMAND (R62) in a build: the range check, then the EDT check. -/
def encCommandIn (P : Config.Build) (value : BitVec 16) (t : Bool) (s : State) : Host.Outcome State Fault Refusal :=
  if !commandValue P value then .next (s.raise .invalidPayload)
  else if !s.edtAdv && P.edtCommands value.toNat then .next (s.raise .invalidPayload)
  else .next (s.complete ((mkFrame (payloadOfValue value) t s.mode).setWidth 32))

/-- ENC_COMMAND (R62). -/
def execEncCommand (value : BitVec 16) (t : Bool) (s : State) : Host.Outcome State Fault Refusal :=
  encCommandIn Config.build value t s

/-- DEC_FRAME (R64) in a build: the CRC of the current mode, then the payload, the flag and the class. -/
def decFrameIn (P : Config.Build) (w16 : Frame) (s : State) : Host.Outcome State Fault Refusal :=
  if !frameValid s.mode w16 then .next (s.raise .crcMismatch)
  else .next (s.complete (decFrameResult (classOf P (payloadOf w16)) (tflagOf w16) (payloadOf w16)))

/-- DEC_FRAME (R64). -/
def execDecFrame (w16 : Frame) (s : State) : Host.Outcome State Fault Refusal := decFrameIn Config.build w16 s

end Sys2Proof.Machine
end

