-- ==== Sys2Proof/Machine/Waveform.lean ====
section
/-! DEFINITION. Bit timing and the transmit waveform: TX, CLASSIFY and the ticks of the phases TX and TRAIL (spec rules R81
to R93). -/

namespace Sys2Proof.Machine

/-- `TBIT(r)` (R82): the bit period in ticks. -/
def tbit (P : Config.Build) (r : Rate) : Nat := P.fClkHz / bitrate r

/-- `T1H(r)` (R82): 3/4 of the bit period. -/
def t1h (P : Config.Build) (r : Rate) : Nat := 3 * tbit P r / 4

/-- `T0H(r)` (R82): 3/8 of the bit period. -/
def t0h (P : Config.Build) (r : Rate) : Nat := 3 * tbit P r / 8

/-- The high time of a bit (R82). -/
def highTime (P : Config.Build) (r : Rate) (b : Bool) : Nat := if b then t1h P r else t0h P r

/-- The logical level of `tx_wave(f, r, mode)` at tick `k` (R87); the electrical one is its exclusive-or with the mode. -/
def txLevel (P : Config.Build) (f : Frame) (r : Rate) (k : Nat) : Level :=
  decide (k < 16 * tbit P r) && decide (k % tbit P r < highTime P r (f.getLsbD (15 - k / tbit P r)))

/-- The waveform of one bit as segments of logical level and ticks (R87). -/
def bitSegments (P : Config.Build) (r : Rate) (b : Bool) : List (Level × Nat) :=
  [(true, highTime P r b), (false, tbit P r - highTime P r b)]

/-- The waveform of a frame as segments, bit 15 first, then the trailing period (R87, R90). -/
def txSegments (P : Config.Build) (f : Frame) (r : Rate) : List (Level × Nat) :=
  ((List.range 16).flatMap fun j => bitSegments P r (f.getLsbD (15 - j))) ++ [(false, P.tTrail)]

/-- The busy time of TX in ticks (R88, R148). -/
def txTicks (P : Config.Build) (r : Rate) : Nat := 16 * tbit P r + P.tTrail

/-- TX at acceptance (R85): a frame whose CRC is not that of the current mode never reaches the line. -/
def execTx (w16 : Frame) (s : State) : Host.Outcome State Fault Refusal :=
  if !frameValid s.mode w16 then .next (s.raise .crcMismatch)
  else .next { s with shreg := w16, bitIdx := 15#4, cnt := 0, phase := .tx, busy := true }

/-- TX at completion (R85). -/
def State.txComplete (s : State) : State := s.complete (s.shreg.setWidth 32)

/-- The frame bit on the line (R86). -/
def State.txBit (s : State) : Bool := s.shreg.getLsbD s.bitIdx.toNat

/-- The end of a bit period (R86): the next bit, or after bit 0 the trailing period, or completion where there is none. -/
def State.nextBit (P : Config.Build) (s : State) : State :=
  if s.bitIdx = 0#4 then
    if P.tTrail = 0 then { s with cnt := 0 }.txComplete else { s with cnt := 0, phase := .trail }
  else { s with cnt := 0, bitIdx := s.bitIdx - 1#4 }

/-- One tick of phase TX (R86). -/
def State.tickTx (P : Config.Build) (s : State) : State :=
  let d := s.drive (decide (s.cnt < highTime P s.rate s.txBit))
  if s.cnt + 1 = tbit P s.rate then d.nextBit P else { d with cnt := s.cnt + 1 }

/-- One tick of phase TRAIL (R86). -/
def State.tickTrail (P : Config.Build) (s : State) : State :=
  let d := { s.drive false with cnt := s.cnt + 1 }
  if s.cnt + 1 = P.tTrail then d.txComplete else d

/-- CLASSIFY (R92) in a build: the bit whose high time `h` is within 10 % of. -/
def classifyIn (P : Config.Build) (h : BitVec 16) (s : State) : Host.Outcome State Fault Refusal :=
  if withinTol P h.toNat (t1h P s.rate) then .next (s.complete 1#32)
  else if withinTol P h.toNat (t0h P s.rate) then .next (s.complete 0#32)
  else .next (s.raise .framingError)

/-- CLASSIFY (R92). -/
def execClassify (h : BitVec 16) (s : State) : Host.Outcome State Fault Refusal := classifyIn Config.build h s

end Sys2Proof.Machine
end

