-- ==== Sys2Proof/Machine/Receive.lean ====
section
/-! DEFINITION. The receive path: RX, the ticks of SWITCH, LISTEN and CAPTURE, the recovery of cells from samples, and the
validator with its counters (spec rules R94 to R108). -/

namespace Sys2Proof.Machine

/-- `TCELL(r)` (R95): one reply cell in ticks. -/
def tcell (P : Config.Build) (r : Rate) : Nat := tbit P r * P.rxRateDen / P.rxRateNum

/-- The capture window `W(r)` (R96): the cells and `JITTER_TOL` of them, rounded up, which for 21 cells and one part in 10 is
`(231 * TCELL(r) + 9) div 10`. -/
def window (P : Config.Build) (r : Rate) : Nat :=
  (P.rxCells * (P.jitterParts + 1) * tcell P r + (P.jitterParts - 1)) / P.jitterParts

/-- The maximal runs of equal level, in time order (R99). -/
def runsOf : List Level → List (Level × Nat)
  | [] => []
  | x :: xs =>
    match runsOf xs with
    | [] => [(x, 1)]
    | (y, d) :: rest => if x = y then (y, d + 1) :: rest else (x, 1) :: (y, d) :: rest

/-- The loop of R99 over the runs still to be read, with the cells read so far; none is `FramingError`. -/
def recoverRuns (P : Config.Build) (T : Nat) : List (Level × Nat) → List Level → Option (List Level)
  | [], _ => none
  | (L, d) :: runs, cells =>
    let rem := P.rxCells - cells.length
    if L = true ∧ (P.jitterParts - 1) * rem * T ≤ P.jitterParts * d then some (cells ++ List.replicate rem true)
    else
      let n := (2 * d + T) / (2 * T)
      if n = 0 ∨ rem < n ∨ withinTol P d (n * T) = false then none
      else
        let cells' := cells ++ List.replicate n L
        if cells'.length = P.rxCells then some cells' else recoverRuns P T runs cells'

/-- `recover(samples, r)` (R99). -/
def recover (P : Config.Build) (samples : List Level) (r : Rate) : Option (List Level) :=
  recoverRuns P (tcell P r) (runsOf samples) []

/-- De-framing (R100): the start cell is dropped, the first of the others becomes bit 19. -/
def deframe (cells : List Level) : Raw :=
  ((cells.drop 1).take 20).foldl (fun acc b => (acc <<< 1) ||| (BitVec.ofBool b).setWidth 20) 0#20

/-- What the environment's answer to one RX comes to (R107). -/
inductive RxAnswer where
  /-- No start edge in time. -/
  | noEdge
  /-- Bit boundaries not recovered. -/
  | garbled
  /-- A raw symbol. -/
  | cells (raw20 : Raw)
  deriving DecidableEq, Repr

/-- How one RX in Bidirectional mode ends (R101). -/
inductive RxOutcome where
  | timeout
  | framingError
  | gcrFraming
  | crcMismatch
  | valid (d : Telemetry)
  deriving DecidableEq, Repr

/-- The answer that a full window of samples is (R99, R100, R107). -/
def answerOf (P : Config.Build) (samples : List Level) (r : Rate) : RxAnswer :=
  match recover P samples r with
  | none => .garbled
  | some cells => .cells (deframe cells)

/-- The pipeline (R101): the first failure, or success. -/
def outcomeOf (P : Config.Build) : RxAnswer → RxOutcome
  | .noEdge => .timeout
  | .garbled => .framingError
  | .cells raw20 =>
    match gcrDecodeWith P.gcrTable raw20 with
    | none => .gcrFraming
    | some w =>
      match tlmDecodeWith P.edtBit w with
      | none => .crcMismatch
      | some d => .valid d

/-- One more discarded frame (R104). -/
def State.countDiscard (s : State) : State := { s with discard := satIncr s.discard }

/-- One more consecutive CRC failure, and the fault it may trip (R104, R105). -/
def State.countCrcFail (s : State) : State :=
  { s with crcFail := satIncr s.crcFail, fault := s.fault || tripsFault s.thresh (satIncr s.crcFail) }

/-- RX at completion with outcome `o` (R94, R102 to R105): the line is driven again at the idle level. -/
def State.finishRx (s : State) (o : RxOutcome) : State :=
  let d := s.drive false
  match o with
  | .timeout => d.raise .timeout
  | .framingError => (d.raise .framingError).countDiscard
  | .gcrFraming => (d.raise .gcrFraming).countDiscard
  | .crcMismatch => (d.raise .crcMismatch).countDiscard.countCrcFail
  | .valid t => { d with crcFail := 0#8 }.complete t.resultWord

/-- RX at acceptance (R94, R106): in Standard mode it completes at once with kind 0. -/
def execRx (s : State) : Host.Outcome State Fault Refusal :=
  match s.mode with
  | .standard => .next (s.complete 0#32)
  | .bidirectional => .next { s.release with phase := .switch, cnt := 0, busy := true }

/-- One tick of phase SWITCH (R97): the line is not looked at. -/
def State.tickSwitch (P : Config.Build) (s : State) : State :=
  if s.cnt + 1 = P.tSwitch then { s with phase := .listen, cnt := 0 } else { s with cnt := s.cnt + 1 }

/-- One tick of phase LISTEN (R97, R98). -/
def State.tickListen (P : Config.Build) (s : State) (lineIn : Level) : State :=
  if lineIn = false then { s with samples := [false], phase := .capture, cnt := 1 }
  else if s.cnt + 1 = P.tRxTimeout then { s with cnt := s.cnt + 1 }.finishRx (outcomeOf P .noEdge)
  else { s with cnt := s.cnt + 1 }

/-- One tick of phase CAPTURE (R97). -/
def State.tickCapture (P : Config.Build) (s : State) (lineIn : Level) : State :=
  let c := { s with samples := s.samples ++ [lineIn], cnt := s.cnt + 1 }
  if s.cnt + 1 = window P s.rate then c.finishRx (outcomeOf P (answerOf P c.samples c.rate)) else c

end Sys2Proof.Machine
end

