-- ==== Sys2Proof/Machine/Clock.lean ====
section
/-! DEFINITION. One clock period of the block (spec rules R16, R34, R84, R86, R97, R131): reset, else the tick of the phase,
else in IDLE the command port. -/

namespace Sys2Proof.Machine

/-- The end of Submit (R34, R43, R51): the operation of an accepted word, or `IllegalOp`. -/
def runWord (run : Instr → State → Host.Outcome State Fault Refusal) (w : Word) (s : State) :
    Host.Outcome State Fault Refusal :=
  match decode w with
  | .ok i => run i s
  | .error _ => .next (s.raise .illegalOp)

/-- A tick of phase IDLE (R34, R84): the presented word is accepted, or the idle level is held. -/
def portPeriod (run : Instr → State → Host.Outcome State Fault Refusal) (s : State) : Host.Outcome State Fault Refusal :=
  match s.presented with
  | some w => runWord run w s.accepted
  | none => .next (s.advance.drive false)

/-- One clock period of a build, with `run` for what an operation does when it is accepted. Reset comes before everything (R131, R132;
assumption log 9). -/
def clockPeriod (P : Config.Build) (run : Instr → State → Host.Outcome State Fault Refusal) (s : State) :
    Host.Outcome State Fault Refusal :=
  if s.pins.rst then .next s.advance.resetBlock
  else if s.busy = s.inIdle then .fault .busyDisagreesWithPhase
  else
    match s.phase with
    | .idle => portPeriod run s
    | .tx => .next (s.advance.tickTx P)
    | .trail => .next (s.advance.tickTrail P)
    | .switch => .next (s.advance.tickSwitch P)
    | .listen => .next (s.advance.tickListen P s.pins.lineIn)
    | .capture => .next (s.advance.tickCapture P s.pins.lineIn)

/-- What an accepted operation does in a build; `exec` is the one for `Config.build` (StepRunsDecodedInstruction). -/
def execIn (P : Config.Build) : Instr → State → Host.Outcome State Fault Refusal
  | .crc4 v12 inv, s => execCrc4 v12 inv s
  | .encThrottle value t, s => encThrottleIn P value t s
  | .encCommand value t, s => encCommandIn P value t s
  | .decFrame w16, s => decFrameIn P w16 s
  | .gcrDecode raw20, s => gcrDecodeIn P raw20 s
  | .gcrEncode w16, s => gcrEncodeIn P w16 s
  | .decTelemetry w16, s => decTelemetryIn P w16 s
  | .tx w16, s => execTx w16 s
  | .rx, s => execRx s
  | .classify h, s => classifyIn P h s
  | .config rate mode edtAdv thresh, s => configIn P rate mode edtAdv thresh s
  | .claim, s => execClaim s
  | .reinit, s => execReinit s

/-- One clock period of a block with the parameters `P` (R7, R26): the step relation with its parameters as arguments. `step`
is the one for `Config.build`. -/
def stepIn (P : Config.Build) (s : State) : Host.Outcome State Fault Refusal := clockPeriod P (execIn P) s

end Sys2Proof.Machine
end

