-- ==== Sys2Proof/Machine/Dispatch.lean ====
section
/-! DEFINITION. exec: one arm for each operation of spec rule R50. -/

namespace Sys2Proof.Machine

def exec (i : Instr) (s : State) : Host.Outcome State Fault Refusal :=
  match i with
  | .crc4 v12 inv => Sys2Proof.Machine.execCrc4 v12 inv s
  | .encThrottle value t => Sys2Proof.Machine.execEncThrottle value t s
  | .encCommand value t => Sys2Proof.Machine.execEncCommand value t s
  | .decFrame w16 => Sys2Proof.Machine.execDecFrame w16 s
  | .gcrDecode raw20 => Sys2Proof.Machine.execGcrDecode raw20 s
  | .gcrEncode w16 => Sys2Proof.Machine.execGcrEncode w16 s
  | .decTelemetry w16 => Sys2Proof.Machine.execDecTelemetry w16 s
  | .tx w16 => Sys2Proof.Machine.execTx w16 s
  | .rx => Sys2Proof.Machine.execRx s
  | .classify h => Sys2Proof.Machine.execClassify h s
  | .config rate mode edtAdv thresh => Sys2Proof.Machine.execConfig rate mode edtAdv thresh s
  | .claim => Sys2Proof.Machine.execClaim s
  | .reinit => Sys2Proof.Machine.execReinit s

end Sys2Proof.Machine
end

