-- ==== Sys2Proof/Machine/Step.lean ====
section
/-! DEFINITION. step: one clock period of the block (spec rules R7, R16; assumption log 8), and the state in which the next
step accepts a given word. -/

namespace Sys2Proof.Machine

/-- One tick of the block's clock, in the build `Config.build`. -/
def step (s : State) : Host.Outcome State Fault Refusal := clockPeriod Config.build exec s

/-- `s` with the given command word at the port, so that the next step accepts and runs it (assumption log 16). -/
def State.withFetchWord (s : State) (nbits w : Nat) : State := s.placeWord (tableWord nbits w)

end Sys2Proof.Machine
end

