-- ==== Sys2Proof/Safety.lean ====
section
/-! DEFINITION. What claims are stated in: how an operation ends (spec rules R119, R120), what it leaves unchanged (R28), the
invariants of R29 and of the driver, how long an operation can still take (R136, R148), what the environment sends for a
reply (R108). What depends on a parameter of R7 takes the build as its argument. -/

namespace Sys2Proof.Machine

/-! ## How an operation ends -/

/-- The status group and RESULT after completion without error (R120). -/
structure State.CompletedWith (t : State) (r : Word) : Prop where
  result  : t.result = r
  done    : t.done = true
  err     : t.err = false
  errcode : t.errcode = .none
  busy    : t.busy = false
  phase   : t.phase = .idle

/-- The status group and RESULT after `raise e` (R119). -/
structure State.RaisedWith (t : State) (e : ErrCode) : Prop where
  result  : t.result = 0#32
  done    : t.done = true
  err     : t.err = true
  errcode : t.errcode = e
  busy    : t.busy = false
  phase   : t.phase = .idle

/-! ## Frames -/

/-- CFG is unchanged. -/
structure SameConfig (s t : State) : Prop where
  rate   : t.rate = s.rate
  mode   : t.mode = s.mode
  edtAdv : t.edtAdv = s.edtAdv
  thresh : t.thresh = s.thresh

/-- The validator's counters and the fault are unchanged. -/
structure SameValidator (s t : State) : Prop where
  crcFail : t.crcFail = s.crcFail
  discard : t.discard = s.discard
  fault   : t.fault = s.fault

/-- The output pins to the wire are unchanged. -/
structure SameLine (s t : State) : Prop where
  lineOut : t.lineOut = s.lineOut
  lineOe  : t.lineOe = s.lineOe

/-- The hidden working state is unchanged. -/
structure SameWork (s t : State) : Prop where
  shreg   : t.shreg = s.shreg
  bitIdx  : t.bitIdx = s.bitIdx
  cnt     : t.cnt = s.cnt
  samples : t.samples = s.samples

/-- What the host and the environment have still to do is unchanged. -/
structure SameInputs (s t : State) : Prop where
  host : t.host = s.host
  env  : t.env = s.env

/-- The status group `done`, `err`, `errcode` is unchanged. -/
structure SameStatus (s t : State) : Prop where
  done    : t.done = s.done
  err     : t.err = s.err
  errcode : t.errcode = s.errcode

/-- Everything but the status group, `busy`, `phase` and RESULT is unchanged: the frame of a pure operation (R28) and of an
error (R119). -/
structure Untouched (s t : State) : Prop where
  config    : SameConfig s t
  validator : SameValidator s t
  line      : SameLine s t
  work      : SameWork s t
  inputs    : SameInputs s t
  owned     : t.owned = s.owned

/-- The CRC nibble of a frame is right for a mode: in each of the four bit positions the exclusive-or of the frame's four
nibbles is 0 in Standard and 1 in Bidirectional mode (R54, R55, R59). -/
def crcRight (f : Frame) (m : Mode) : Prop :=
  ∀ i, i < 4 → (f.getLsbD i ^^ f.getLsbD (i + 4) ^^ f.getLsbD (i + 8) ^^ f.getLsbD (i + 12)) = m.bit

/-- The values R27 gives for reset, the registers as the host reads them included. The hidden working state is not among
them. -/
structure State.IsReset (t : State) : Prop where
  rate    : t.rate = .k150
  mode    : t.mode = .standard
  edtAdv  : t.edtAdv = false
  thresh  : t.thresh = 0#8
  busy    : t.busy = false
  done    : t.done = false
  err     : t.err = false
  errcode : t.errcode = .none
  fault   : t.fault = false
  owned   : t.owned = false
  phase   : t.phase = .idle
  result  : t.result = 0#32
  crcFail : t.crcFail = 0#8
  discard : t.discard = 0#16
  lineOut : t.lineOut = false
  lineOe  : t.lineOe = true
  regs    : ∀ i : BitVec 3, t.regRead i = 0#32

/-- How an RX that was accepted in `s`, or is in progress there, ends in `t` with an outcome (R102 to R105): the status group
and RESULT, the counters, the fault, and the line driven at the idle level (R94). -/
def RxEnds (s t : State) (o : RxOutcome) : Prop :=
  SameConfig s t ∧ t.owned = s.owned ∧ t.lineOe = true ∧ t.lineOut = s.mode.bit ∧
  match o with
  | .timeout => t.RaisedWith .timeout ∧ SameValidator s t
  | .framingError =>
    t.RaisedWith .framingError ∧ t.crcFail = s.crcFail ∧ t.discard.toNat = min (s.discard.toNat + 1) 65535 ∧
    t.fault = s.fault
  | .gcrFraming =>
    t.RaisedWith .gcrFraming ∧ t.crcFail = s.crcFail ∧ t.discard.toNat = min (s.discard.toNat + 1) 65535 ∧
    t.fault = s.fault
  | .crcMismatch =>
    t.RaisedWith .crcMismatch ∧ t.crcFail.toNat = min (s.crcFail.toNat + 1) 255 ∧
    t.discard.toNat = min (s.discard.toNat + 1) 65535 ∧
    (t.fault = true ↔ s.fault = true ∨ (s.thresh ≠ 0#8 ∧ s.thresh.toNat ≤ t.crcFail.toNat))
  | .valid d => t.CompletedWith d.resultWord ∧ t.crcFail = 0#8 ∧ t.discard = s.discard ∧ t.fault = s.fault

/-- How GCR_DECODE of `raw` ends with the table `T` (R70, R71): the frame whose nibbles the table takes to the quintets of
`raw ^ (raw >> 1)`, `GcrFraming` if some quintet is not in the table; nothing but the status group and RESULT changes. -/
def GcrDecodeEnds (T : BitVec 4 → BitVec 5) (raw : Raw) (s t : State) : Prop :=
  Untouched s t ∧
  (∀ x : Frame, (∀ k, k < 4 → T (x.extractLsb' (4 * k) 4) = (raw ^^^ (raw >>> 1)).extractLsb' (5 * k) 5) →
    t.CompletedWith (x.setWidth 32)) ∧
  ((∃ k, k < 4 ∧ ∀ n, T n ≠ (raw ^^^ (raw >>> 1)).extractLsb' (5 * k) 5) → t.RaisedWith .gcrFraming)

/-- How GCR_ENCODE of `w` ends with the table `T` (R73): with the symbol whose transitions are the quintets of the four nibbles,
which decodes back to `w`, and the rest of RESULT 0; nothing but the status group and RESULT changes. -/
def GcrEncodeEnds (T : BitVec 4 → BitVec 5) (w : BitVec 16) (s t : State) : Prop :=
  Untouched s t ∧
  ∃ raw : Raw, t.CompletedWith (raw.setWidth 32) ∧ gcrDecodeWith T raw = some w ∧
    ∀ k, k < 4 → (raw ^^^ (raw >>> 1)).extractLsb' (5 * k) 5 = T (w.extractLsb' (4 * k) 4)

/-- How DEC_TELEMETRY of `w` ends with the discriminator at bit `edtBit` (R77, R78): the CRC is uninverted in both modes, the
bit tells the period `m << e` from the EDT type and data; nothing but the status group and RESULT changes. -/
def TelemetryEnds (edtBit : Nat) (w : Frame) (s t : State) : Prop :=
  Untouched s t ∧
  (¬crcRight w .standard → t.RaisedWith .crcMismatch) ∧
  (crcRight w .standard → w.getLsbD edtBit = true →
    t.CompletedWith (BitVec.ofNat 32 (65536 + w.toNat / 16 % 512 * 2 ^ (w.toNat / 8192)))) ∧
  (crcRight w .standard → w.getLsbD edtBit = false →
    t.CompletedWith (BitVec.ofNat 32 (131072 + w.toNat / 4096 * 256 + w.toNat / 16 % 256)))

/-- How CLASSIFY of `h` ends with the bands `lo0..hi0` of a 0 and `lo1..hi1` of a 1, ends included (R92); nothing but the
status group and RESULT changes. -/
def ClassifyEnds (lo0 hi0 lo1 hi1 : Nat) (h : BitVec 16) (s t : State) : Prop :=
  Untouched s t ∧
  (lo0 ≤ h.toNat ∧ h.toNat ≤ hi0 → t.CompletedWith 0#32) ∧
  (lo1 ≤ h.toNat ∧ h.toNat ≤ hi1 → t.CompletedWith 1#32) ∧
  (¬(lo0 ≤ h.toNat ∧ h.toNat ≤ hi0) ∧ ¬(lo1 ≤ h.toNat ∧ h.toNat ≤ hi1) → t.RaisedWith .framingError)

/-- The chain of R101 for the answer of the environment to one RX in a build, in terms of R69's, R54's and R77's own words: no
edge, no cells, a quintet that is not in the table, a wrong CRC, or a frame that is a period or an EDT type and data. -/
def OutcomeChain (P : Config.Build) : Prop :=
  outcomeOf P .noEdge = .timeout ∧ outcomeOf P .garbled = .framingError ∧
  (∀ (samples : List Level) (r : Rate), recover P samples r = none →
    outcomeOf P (answerOf P samples r) = .framingError) ∧
  (∀ (samples cells : List Level) (r : Rate), recover P samples r = some cells →
    answerOf P samples r = .cells (deframe cells)) ∧
  ∀ raw : Raw,
    ((∃ k, k < 4 ∧ ∀ n, P.gcrTable n ≠ (raw ^^^ (raw >>> 1)).extractLsb' (5 * k) 5) →
      outcomeOf P (.cells raw) = .gcrFraming) ∧
    ∀ x : Frame,
      (∀ k, k < 4 → P.gcrTable (x.extractLsb' (4 * k) 4) = (raw ^^^ (raw >>> 1)).extractLsb' (5 * k) 5) →
      (¬crcRight x .standard → outcomeOf P (.cells raw) = .crcMismatch) ∧
      (crcRight x .standard → x.getLsbD P.edtBit = true →
        ∃ d, outcomeOf P (.cells raw) = .valid d ∧
          d.resultWord = BitVec.ofNat 32 (65536 + x.toNat / 16 % 512 * 2 ^ (x.toNat / 8192))) ∧
      (crcRight x .standard → x.getLsbD P.edtBit = false →
        ∃ d, outcomeOf P (.cells raw) = .valid d ∧
          d.resultWord = BitVec.ofNat 32 (131072 + x.toNat / 4096 * 256 + x.toNat / 16 % 256))

/-! ## Cells -/

/-- R99: a run of `d` ticks is read as `n` cells of `T` ticks: `n` is `d / T` rounded to the nearest whole number, not 0, and `d`
is within 10 % of `n` cells. -/
structure ReadsAs (T d n : Nat) : Prop where
  some_cell : 1 ≤ n
  nearest   : 2 * (n * T) ≤ 2 * d + T ∧ 2 * d + T < 2 * (n * T) + 2 * T
  not_short : 9 * (n * T) ≤ 10 * d
  not_long  : 10 * d ≤ 11 * (n * T)

/-- R99: is a run, with `rem` cells still to read, the reply's last high cells, which run on into the idle level? -/
def FinalHigh (T rem : Nat) (g : Level × Nat) : Prop := g.1 = true ∧ 9 * (rem * T) ≤ 10 * g.2

/-- R99 as a relation: with `rem` cells still to read, the runs give these cells. Nothing else is recovered: a run that is neither
the final high one nor read as at most `rem` cells, and runs that end too early, give none. -/
inductive Recovered (T : Nat) : Nat → List (Level × Nat) → List Level → Prop where
  /-- The final high run fills up the cells. -/
  | fill {rem : Nat} {g : Level × Nat} {runs : List (Level × Nat)} (h : FinalHigh T rem g) :
    Recovered T rem (g :: runs) (List.replicate rem true)
  /-- A run that is read as all the cells still to read is the last; what follows is ignored. -/
  | last {rem : Nat} {g : Level × Nat} {runs : List (Level × Nat)} (h : ¬FinalHigh T rem g) (hn : ReadsAs T g.2 rem) :
    Recovered T rem (g :: runs) (List.replicate rem g.1)
  /-- A run that is read as fewer cells, and the runs after it. -/
  | more {rem n : Nat} {g : Level × Nat} {runs : List (Level × Nat)} {cells : List Level} (h : ¬FinalHigh T rem g)
    (hn : ReadsAs T g.2 n) (hlt : n < rem) (hc : Recovered T (rem - n) runs cells) :
    Recovered T rem (g :: runs) (List.replicate n g.1 ++ cells)

/-! ## Ready states -/

/-- The next tick is one in which a presented word is accepted (R34). -/
structure State.Ready (s : State) : Prop where
  rst   : s.pins.rst = false
  busy  : s.busy = false
  phase : s.phase = .idle

/-- No reset comes in the ticks the environment's list speaks of. -/
def State.NoReset (s : State) : Prop := ∀ p ∈ s.env, p.rst = false

/-- The operation `i` is accepted in the coming tick. -/
def State.Accepts (s : State) (i : Instr) : Prop := s.Ready ∧ ∃ w, s.presented = some w ∧ decode w = .ok i

/-! ## Invariants -/

/-- The phases in which the line is released (R23). -/
def Phase.released (p : Phase) : Prop := p = .switch ∨ p = .listen ∨ p = .capture

/-- R29, with R20's invariant and the codes that R115 says the block never raises. -/
structure State.Inv (s : State) : Prop where
  busy_phase    : s.busy = true ↔ s.phase ≠ .idle
  busy_pending  : s.busy = true → s.done = false
  err_done      : s.err = true → s.done = true
  errcode_err   : s.errcode = .none ↔ s.err = false
  errcode_block : s.errcode ≠ .armTimeout ∧ s.errcode ≠ .channelFault
  cfg_legal     : ¬(s.mode = .bidirectional ∧ s.rate = .k150)
  released      : s.lineOe = false ↔ s.phase.released
  idle_level    : s.phase = .idle ∨ s.phase = .trail → s.lineOut = s.mode.bit

/-- The working state while the driver is busy: the counter below its bound (R86, R97, R124), a frame on the line valid in its
mode (R58, R85), reception only in Bidirectional mode (R106), the samples those of the ticks counted (R97, R99). -/
structure State.DriverInv (P : Config.Build) (s : State) : Prop where
  tx_count     : s.phase = .tx → s.cnt < tbit P s.rate
  trail_count  : s.phase = .trail → s.cnt < P.tTrail
  switch_count : s.phase = .switch → s.cnt < P.tSwitch
  listen_count : s.phase = .listen → s.cnt < P.tRxTimeout
  capture_count : s.phase = .capture → s.cnt < window P s.rate
  tx_frame     : s.phase = .tx ∨ s.phase = .trail → frameValid s.mode s.shreg = true
  rx_mode      : s.phase.released → s.mode = .bidirectional
  samples      : s.phase = .capture → s.samples.length = s.cnt ∧ s.samples.head? = some false

/-! ## Time -/

/-- An upper bound of the ticks the operation in progress still takes (R136, R148). -/
def State.ticksLeft (P : Config.Build) (s : State) : Nat :=
  match s.phase with
  | .idle => 0
  | .tx => s.bitIdx.toNat * tbit P s.rate + (tbit P s.rate - s.cnt) + P.tTrail
  | .trail => P.tTrail - s.cnt
  | .switch => (P.tSwitch - s.cnt) + P.tRxTimeout + window P s.rate - 1
  | .listen => (P.tRxTimeout - s.cnt) + window P s.rate - 1
  | .capture => window P s.rate - s.cnt

/-- The longest busy time at a rate (R136): that of TX or that of RX. -/
def busyBound (P : Config.Build) (r : Rate) : Nat :=
  max (txTicks P r) (P.tSwitch + P.tRxTimeout + window P r - 1)

/-- Running the block with the parameters `P` for a number of ticks. -/
def runTicks (P : Config.Build) : Nat → State → Host.Outcome State Fault Refusal
  | 0, s => .next s
  | k + 1, s =>
    match stepIn P s with
    | .next t => runTicks P k t
    | .fault r => .fault r
    | .refused r => .refused r

/-- The levels of a reply with nominal timing (R108), from the start edge to the end of the capture window: the start cell, the
cells of the symbol with bit 19 first, then the line high. -/
def nominalReply (P : Config.Build) (raw20 : Raw) (r : Rate) : List Level :=
  List.replicate (tcell P r) false ++
    ((List.range 20).flatMap fun i => List.replicate (tcell P r) (raw20.getLsbD (19 - i))) ++
    List.replicate (window P r - 21 * tcell P r) true

/-- Ticks without reset in which the wire has the given levels. -/
def ticksOf (levels : List Level) : List TickIn := levels.map fun l => ⟨false, l, 0#3⟩

end Sys2Proof.Machine
end

