-- ==== Sys2Proof/Certificates/Slice0/Obligations.lean ====
section
/-! DEFINITION. The statements for the provers, from the numbered rules of spec/. -/

open Sys2Proof Sys2Proof.Machine

/-! ## Reset, invariants, progress -/

/-- R27: the values of reset, at power-on and at a tick with `rst` = 1, whatever the block was doing. -/
def Obligations.ResetValues : Prop :=
  State.reset.IsReset ∧ ∀ s : State, s.pins.rst = true → ∃ t, step s = .next t ∧ t.IsReset

/-- The invariants hold after reset, the driver's with every build's parameters. -/
def Obligations.ResetMeetsInvariants : Prop := State.reset.Inv ∧ ∀ P : Config.Build, State.reset.DriverInv P

/-- R29's invariants ("Invariants that hold in every reachable state"), the spec's own inference from R17, R20, R23 and R27, with
R115's codes that are never raised: every step keeps them, in the host's machine and in every build of R7. -/
def Obligations.StepKeepsInvariants : Prop :=
  (∀ s t : State, s.Inv → step s = .next t → t.Inv) ∧
  ∀ P : Config.Build, P.Legal → ∀ s t : State, s.Inv → stepIn P s = .next t → t.Inv

/-- The driver's working state stays within the bounds of R86 and R97, a frame on the line has the CRC of its mode (R58), RX
runs only in Bidirectional mode (R106), and the samples are those of the ticks counted: every step keeps it, in the host's
machine and in every build of R7. -/
def Obligations.StepKeepsDriverInvariants : Prop :=
  (∀ s t : State, s.DriverInv Config.build → step s = .next t → t.DriverInv Config.build) ∧
  ∀ P : Config.Build, P.Legal → ∀ s t : State, s.DriverInv P → stepIn P s = .next t → t.DriverInv P

/-- A state with `busy` = 1 exactly when `phase` ≠ IDLE (R23) never stops: a step answers a next state whatever the host and
the wire do. R150: "the block never hangs". -/
def Obligations.CoherentStateNeverStops : Prop :=
  ∀ s : State, (s.busy = true ↔ s.phase ≠ .idle) → ∃ t, step s = .next t

/-- R150's inference "every operation completes in a bounded number of ticks whatever `line_in` does", with the bound of R136
and R148, in every build of R7: within the longest busy time of the rate the block is no longer busy, by completion or by a
reset. No premise speaks of reset or of the ticks to come. -/
def Obligations.BusyEndsWithinBound : Prop :=
  ∀ P : Config.Build, P.Legal → ∀ s : State, s.Inv → s.DriverInv P →
    ∃ k, k ≤ busyBound P s.rate ∧ ∃ t, runTicks P k s = .next t ∧ t.busy = false

/-! ## Acceptance of words -/

/-- R34, R43: in a ready tick the presented word's operation is run on the state in which the status is cleared, the word is gone
from the port, one tick of the environment is over and the idle level is driven (R84); nothing else differs. And the host's
machine, `step` with `exec`, is the one of the build `Config.build` among the builds of R7, so that what is stated of
`stepIn P` for every legal `P` is true of it. -/
def Obligations.StepRunsDecodedInstruction : Prop :=
  (∀ (s : State) (i : Instr), s.Accepts i →
    step s = exec i s.accepted ∧
    s.accepted.done = false ∧ s.accepted.err = false ∧ s.accepted.errcode = .none ∧
    s.accepted.host = s.host.tail ∧ s.accepted.env = s.env.tail ∧
    s.accepted.lineOe = true ∧ s.accepted.lineOut = s.mode.bit ∧
    s.accepted.result = s.result ∧ s.accepted.owned = s.owned ∧ s.accepted.busy = s.busy ∧
    s.accepted.phase = s.phase ∧ SameConfig s s.accepted ∧ SameValidator s s.accepted ∧ SameWork s s.accepted) ∧
  Config.build.Legal ∧ (∀ s : State, step s = stepIn Config.build s) ∧
  ∀ (i : Instr) (s : State), exec i s = execIn Config.build i s

/-- R34, R38: while the block is busy the presented word stays at the port, in its place. -/
def Obligations.WordHeldWhileBusy : Prop :=
  ∀ (s t : State) (w : Word) (h : List HostAct), s.host = .submit w :: h → s.busy = true → step s = .next t →
    t.host = .submit w :: h

/-- R51 with R50's table: a word that matches no row is accepted and completes at once with `IllegalOp`, and changes nothing else,
in a state that meets R29's invariant not even the line; the all-zero word is one. -/
def Obligations.IllegalWordOnlyRaisesIllegalOp : Prop :=
  wordWellFormed 0#32 = false ∧ ErrCode.illegalOp.code = 10#4 ∧
  ∀ (s : State) (w : Word), s.Ready → s.Inv → s.presented = some w → wordWellFormed w = false →
    ∃ t, step s = .next t ∧ t.RaisedWith .illegalOp ∧ t.host = s.host.tail ∧ t.env = s.env.tail ∧
      SameConfig s t ∧ SameValidator s t ∧ SameLine s t ∧ SameWork s t ∧ t.owned = s.owned

/-- A tick of IDLE in which no word is accepted changes nothing but the inputs (R84, R128, R129), in a state that meets R29's
invariant. -/
def Obligations.IdleTickChangesNothing : Prop :=
  ∀ s : State, s.Ready → s.Inv → s.presented = none →
    step s = .next { s with host := s.hostLater, env := s.env.tail }

/-! ## Encoding -/

/-- For every operation, with every operand at every value its field admits, decoding its word gives it back. -/
def Obligations.DecodeEncodeAgree : Prop := ∀ i : Instr, i.wellFormed = true → decode (encode i) = .ok i

/-- Every word that decodes is the word of its operation: each operation has one word. -/
def Obligations.EncodeDecodeAgree : Prop := ∀ (w : Word) (i : Instr), decode w = .ok i → encode i = w

/-- R50: `w` spells the operation of a row exactly when `(w & mask) = match`, and no word matches two rows. -/
def Obligations.DecoderMatchesOpcodeTable : Prop :=
  ∀ w : Word,
    (∀ r ∈ opRows, (w &&& r.mask = r.pattern ↔ ∃ i, decode w = .ok i ∧ i.mnemonic = r.mnemonic)) ∧
    (∀ r ∈ opRows, ∀ r' ∈ opRows, w &&& r.mask = r.pattern → w &&& r'.mask = r'.pattern → r = r')

/-- Words written out from R44 to R50 and R53, one of each format and of each kind of refusal. -/
def Obligations.SampleWordsDecode : Prop :=
  decode 0x100013E8#32 = .ok (.crc4 0x3E8#12 true) ∧
  decode 0x30010001#32 = .ok (.encCommand 1#16 true) ∧
  decode 0x40007D0A#32 = .ok (.decFrame 0x7D0A#16) ∧
  decode 0x500B6D24#32 = .ok (.gcrDecode 0xB6D24#20) ∧
  decode 0x80003E8A#32 = .ok (.tx 0x3E8A#16) ∧
  decode 0x90000000#32 = .ok .rx ∧
  decode 0xB000FF0F#32 = .ok (.config .k1200 .bidirectional true 255#8) ∧
  decode 0x00000000#32 = .error .illegalOpcode ∧
  decode 0xF1234567#32 = .error .illegalOpcode ∧
  decode 0xB0000010#32 = .error .reservedBitSet

/-! ## CRC-4 -/

/-- R54, R56: each bit of the nibble is the exclusive-or of three bits, inverted for `inv` = 1; the rest of RESULT is 0; nothing
but the status group and RESULT changes. -/
def Obligations.Crc4Result : Prop :=
  ∀ (v : V12) (inv : Bool) (s : State), ∃ t, exec (.crc4 v inv) s = .next t ∧ Untouched s t ∧
    t.CompletedWith t.result ∧
    (∀ i, i < 4 → t.result.getLsbD i = (v.getLsbD i ^^ v.getLsbD (i + 4) ^^ v.getLsbD (i + 8) ^^ inv)) ∧
    (∀ i, 4 ≤ i → t.result.getLsbD i = false)

/-- The laws R57 draws from R54 and R55: linearity, the nibble criterion of validity in both modes, that no frame is valid in both,
and that two flips 4, 8 or 12 positions apart go unnoticed. -/
def Obligations.CrcLaws : Prop :=
  (∀ a b : V12, crc4 (a ^^^ b) = crc4 a ^^^ crc4 b) ∧ crc4 0#12 = 0#4 ∧
  (∀ (f : Frame) (m : Mode), frameValid m f = true ↔ crcRight f m) ∧
  (∀ f : Frame, ¬(frameValid .standard f = true ∧ frameValid .bidirectional f = true)) ∧
  (∀ (f : Frame) (m : Mode) (i j : Nat), i < j → j < 16 → (j - i) % 4 = 0 →
    frameValid m (f ^^^ (1#16 <<< i) ^^^ (1#16 <<< j)) = frameValid m f)

/-! ## Command frames -/

/-- R58, R59, R60: 0 and 48..2047 give the frame whose payload, flag and CRC bits R59 lays out, every other value
`InvalidPayload`; nothing but the status group and RESULT changes. -/
def Obligations.EncThrottleResult : Prop :=
  ∀ (value : BitVec 16) (t : Bool) (s : State), ∃ u, exec (.encThrottle value t) s = .next u ∧ Untouched s u ∧
    (value.toNat = 0 ∨ (48 ≤ value.toNat ∧ value.toNat ≤ 2047) →
      ∃ f : Frame, u.CompletedWith (f.setWidth 32) ∧ f.toNat / 16 = 2 * value.toNat + t.toNat ∧ crcRight f s.mode) ∧
    (¬(value.toNat = 0 ∨ (48 ≤ value.toNat ∧ value.toNat ≤ 2047)) → u.RaisedWith .invalidPayload)

/-- R62: 1..47 give the frame, unless the value is one of EDT_COMMANDS and EDT support was not advertised; every other value
`InvalidPayload`; nothing but the status group and RESULT changes. -/
def Obligations.EncCommandResult : Prop :=
  ∀ (value : BitVec 16) (t : Bool) (s : State), ∃ u, exec (.encCommand value t) s = .next u ∧ Untouched s u ∧
    ((1 ≤ value.toNat ∧ value.toNat ≤ 47) ∧ ¬(Config.isEdtCommand value.toNat = true ∧ s.edtAdv = false) →
      ∃ f : Frame, u.CompletedWith (f.setWidth 32) ∧ f.toNat / 16 = 2 * value.toNat + t.toNat ∧ crcRight f s.mode) ∧
    (¬((1 ≤ value.toNat ∧ value.toNat ≤ 47) ∧ ¬(Config.isEdtCommand value.toNat = true ∧ s.edtAdv = false)) →
      u.RaisedWith .invalidPayload)

/-- R64: payload, flag and class of a frame whose CRC is that of the current mode, `CrcMismatch` for any other; nothing but the
status group and RESULT changes. -/
def Obligations.DecFrameResult : Prop :=
  ∀ (w : Frame) (s : State), ∃ u, exec (.decFrame w) s = .next u ∧ Untouched s u ∧
    (crcRight w s.mode → u.CompletedWith (BitVec.ofNat 32
      (w.toNat / 32 + 2048 * (w.toNat / 16 % 2) +
        4096 * (if w.toNat / 32 = 0 then 0 else if w.toNat / 32 ≤ 47 then 1 else 2)))) ∧
    (¬crcRight w s.mode → u.RaisedWith .crcMismatch)

/-- R65's inference from R58, R60, R62 and R64: what the encoders accept, DEC_FRAME in the same mode gives back. -/
def Obligations.EncodeThenDecodeRoundTrip : Prop :=
  ∀ (value : BitVec 16) (t : Bool) (s : State) (i : Instr),
    (i = .encThrottle value t ∧ (value = 0#16 ∨ (48 ≤ value.toNat ∧ value.toNat ≤ 2047))) ∨
    (i = .encCommand value t ∧ 1 ≤ value.toNat ∧ value.toNat ≤ 47 ∧
      ¬(Config.isEdtCommand value.toNat = true ∧ s.edtAdv = false)) →
    ∃ u v, exec i s = .next u ∧ exec (.decFrame (resultLow u.result)) u = .next v ∧ v.err = false ∧
      (v.result.extractLsb' 0 11).toNat = value.toNat ∧ v.result.getLsbD 11 = t

/-- R66's inference from R57 and R64, for TX too (R85): a frame that is right but for one flipped bit is refused. -/
def Obligations.FlippedFrameIsRefused : Prop :=
  ∀ (f : Frame) (k : Nat) (s : State), k < 16 → crcRight f s.mode →
    (∃ u, exec (.decFrame (f ^^^ (1#16 <<< k))) s = .next u ∧ u.RaisedWith .crcMismatch ∧ Untouched s u) ∧
    (∃ u, exec (.tx (f ^^^ (1#16 <<< k))) s = .next u ∧ u.RaisedWith .crcMismatch ∧ Untouched s u)

/-- R138's inference from R55 and R85: a frame that ENC_THROTTLE or ENC_COMMAND encoded in one mode and that is sent after a
CONFIG to the other is refused, and nothing reaches the line. -/
def Obligations.ModeChangeInvalidatesFrame : Prop :=
  ∀ (i : Instr) (value : BitVec 16) (t a : Bool) (n : BitVec 8) (r : Rate) (m : Mode) (s u v : State),
    i = .encThrottle value t ∨ i = .encCommand value t →
    exec i s = .next u → u.err = false → m ≠ s.mode → exec (.config r m a n) u = .next v →
    v.err = false → ∃ x, exec (.tx (resultLow u.result)) v = .next x ∧ x.RaisedWith .crcMismatch ∧ Untouched v x

/-! ## GCR -/

/-- R74 bit by bit, R72 bit by bit, and that they are inverse to each other. -/
def Obligations.GrayAndUngrayAreInverse : Prop :=
  ∀ x : Raw, gcrUngray (gcrGray x) = x ∧ gcrGray (gcrUngray x) = x ∧
    (gcrGray x).getLsbD 19 = x.getLsbD 19 ∧
    (∀ i, i < 19 → (gcrGray x).getLsbD i = (x.getLsbD i ^^ x.getLsbD (i + 1))) ∧
    (gcrUngray x).getLsbD 19 = x.getLsbD 19 ∧
    (∀ i, i < 19 → (gcrUngray x).getLsbD i = (x.getLsbD i ^^ (gcrUngray x).getLsbD (i + 1)))

/-- The table of R68 entry by entry, and R69's inverse of it over all 32 quintets (from general knowledge, assumption log 6). -/
def Obligations.GcrTableAndInverse : Prop :=
  nibbles.map Config.gcrTable =
    [0x19#5, 0x1B#5, 0x12#5, 0x13#5, 0x1D#5, 0x15#5, 0x16#5, 0x17#5, 0x1A#5, 0x09#5, 0x0A#5, 0x0B#5, 0x1E#5, 0x0D#5,
      0x0E#5, 0x0F#5] ∧
  ((List.range 32).map fun q => (gcrInv Config.gcrTable (BitVec.ofNat 5 q)).map BitVec.toNat) =
    [none, none, none, none, none, none, none, none, none, some 9, some 10, some 11, none, some 13, some 14, some 15,
      none, none, some 2, some 3, none, some 5, some 6, some 7, none, some 0, some 8, some 1, none, some 4, some 12, none]

/-- For every injective table a symbol decodes to a frame exactly when it is that frame's encoding: decode after encode is the
identity (R73), and nothing but encodings decodes (R70). -/
def Obligations.GcrDecodesExactlyTheCodewords : Prop :=
  ∀ T : BitVec 4 → BitVec 5, (∀ a b, T a = T b → a = b) →
    ∀ (raw : Raw) (x : Frame), gcrDecodeWith T raw = some x ↔ gcrEncodeWith T x = raw

/-- R70, R71: the frame whose nibbles the table takes to the quintets of `raw ^ (raw >> 1)`, `GcrFraming` if some quintet is not in
the table; nothing but the status group and RESULT changes. Of the host's machine, with R68's table (assumption log 6), and
of every build with its own. -/
def Obligations.GcrDecodeResult : Prop :=
  ∀ (raw : Raw) (s : State),
    (∃ t, exec (.gcrDecode raw) s = .next t ∧ GcrDecodeEnds Config.gcrTable raw s t) ∧
    ∀ P : Config.Build, P.Legal → ∃ t, execIn P (.gcrDecode raw) s = .next t ∧ GcrDecodeEnds P.gcrTable raw s t

/-- R73: the symbol whose transitions are the quintets of the four nibbles, which decodes back to the operand; the rest of RESULT
is 0; nothing but the status group and RESULT changes. Of the host's machine, with R68's table (assumption log 6), and of
every build with its own. -/
def Obligations.GcrEncodeResult : Prop :=
  ∀ (w : BitVec 16) (s : State),
    (∃ t, exec (.gcrEncode w) s = .next t ∧ GcrEncodeEnds Config.gcrTable w s t) ∧
    ∀ P : Config.Build, P.Legal → ∃ t, execIn P (.gcrEncode w) s = .next t ∧ GcrEncodeEnds P.gcrTable w s t

/-! ## Telemetry -/

/-- R77, R78, R80: the CRC is uninverted in both modes; the bit `EDT_BIT`, 14 in the host's machine (assumption log 7), tells the
period `m << e` from the EDT type and data; nothing but the status group and RESULT changes. Of every build with its own
`EDT_BIT` too. -/
def Obligations.DecTelemetryResult : Prop :=
  ∀ (w : Frame) (s : State),
    (∃ t, exec (.decTelemetry w) s = .next t ∧ TelemetryEnds 14 w s t) ∧
    ∀ P : Config.Build, ∃ t, execIn P (.decTelemetry w) s = .next t ∧ TelemetryEnds P.edtBit w s t

/-- R79's inference from R76 and R77: the shift loses no bit, the largest period is 65408, and a decoded period is a multiple of
4. -/
def Obligations.PeriodNeverOverflows : Prop :=
  ∀ w : Frame, (periodOf w).toNat = (mantissaOf w).toNat * 2 ^ (exponentOf w).toNat ∧ (periodOf w).toNat ≤ 65408 ∧
    (w.getLsbD 14 = true → (periodOf w).toNat % 4 = 0)

/-! ## Bit timing, TX, CLASSIFY -/

/-- R82: the tick columns of the timing table, for the 48 MHz clock, with the idle ticks after a 1 and after a 0; and in every
build the ratios the rule names. -/
def Obligations.BitTimingTable : Prop :=
  ([Rate.k150, .k300, .k600, .k1200].map fun r =>
      (bitrate r, tbit Config.build r, t1h Config.build r, t0h Config.build r,
        tbit Config.build r - t1h Config.build r, tbit Config.build r - t0h Config.build r)) =
    [(150000, 320, 240, 120, 80, 200), (300000, 160, 120, 60, 40, 100), (600000, 80, 60, 30, 20, 50),
      (1200000, 40, 30, 15, 10, 25)] ∧
  ∀ P : Config.Build, P.Legal → ∀ r : Rate,
    tbit P r * bitrate r = P.fClkHz ∧ 4 * t1h P r = 3 * tbit P r ∧ 8 * t0h P r = 3 * tbit P r ∧ t1h P r = 2 * t0h P r

/-- R95, R96: the reply cell and the capture window in ticks, for the 48 MHz clock; and in every build their formulas. -/
def Obligations.ReplyTimingTable : Prop :=
  ([Rate.k150, .k300, .k600, .k1200].map fun r => (tcell Config.build r, window Config.build r)) =
    [(256, 5914), (128, 2957), (64, 1479), (32, 740)] ∧
  ∀ P : Config.Build, P.Legal → ∀ r : Rate,
    5 * tcell P r = 4 * tbit P r ∧ window P r = (231 * tcell P r + 9) / 10

/-- R85 at acceptance: a frame right for the current mode starts phase TX at bit 15, whatever its payload, `fault` and `owned`; any
other is refused with the line untouched. -/
def Obligations.TxAcceptance : Prop :=
  ∀ (f : Frame) (s : State), ∃ t, exec (.tx f) s = .next t ∧
    (crcRight f s.mode →
      t.phase = .tx ∧ t.busy = true ∧ t.shreg = f ∧ t.bitIdx = 15#4 ∧ t.cnt = 0 ∧ t.samples = s.samples ∧
      t.result = s.result ∧ t.owned = s.owned ∧ SameConfig s t ∧ SameValidator s t ∧ SameLine s t ∧ SameStatus s t ∧
      SameInputs s t) ∧
    (¬crcRight f s.mode → t.RaisedWith .crcMismatch ∧ Untouched s t)

/-- R85, R86, R90 against the closed form of R87, in every build of R7: from the tick in which TX is accepted, which is a step of
its own (assumption log 8), with no reset in the list of ticks and so none after it (assumption log 2), the wire carries
the levels of the waveform tick by tick, the block stays busy for 16 bit periods and the trailing period, and then completes
with the frame in RESULT. -/
def Obligations.TxPutsFrameOnTheWire : Prop :=
  ∀ P : Config.Build, P.Legal → ∀ (s : State) (f : Frame), s.Accepts (.tx f) → s.NoReset → frameValid s.mode f = true →
    ∀ k, k < txTicks P s.rate → ∃ t, runTicks P (k + 2) s = .next t ∧
      t.driven = some (txLevel P f s.rate k ^^ s.mode.bit) ∧
      (k + 1 < txTicks P s.rate → t.busy = true ∧ t.done = false) ∧
      (k + 1 = txTicks P s.rate → t.CompletedWith (f.setWidth 32))

/-- R87's two forms of the waveform agree, in every build: the segments laid end to end are the levels tick by tick. -/
def Obligations.TxSegmentsAreTheWave : Prop :=
  ∀ P : Config.Build, P.Legal → ∀ (f : Frame) (r : Rate),
    ((txSegments P f r).flatMap fun g => List.replicate g.2 g.1) = (List.range (txTicks P r)).map (txLevel P f r)

/-- The ticks of TX and TRAIL write only `phase`, `bit_idx`, `cnt`, `line_out` and, at completion, the status group and RESULT
(R28, R39, R86). -/
def Obligations.TransmitTicksFrame : Prop :=
  ∀ s t : State, s.pins.rst = false → s.phase = .tx ∨ s.phase = .trail → step s = .next t →
    SameConfig s t ∧ SameValidator s t ∧ t.owned = s.owned ∧ t.shreg = s.shreg ∧ t.samples = s.samples ∧
    t.lineOe = true ∧ t.host = s.hostLater ∧ t.env = s.env.tail ∧
    (t.busy = true → SameStatus s t ∧ t.result = s.result) ∧
    (t.busy = false → t.CompletedWith (s.shreg.setWidth 32))

/-- R91 and R92 as the bands that R93 infers from them, ends included, at every rate of the host's machine; and in every build
the bands of 10 % around its own high times. Nothing but the status group and RESULT changes. -/
def Obligations.ClassifyBands : Prop :=
  ∀ (h : BitVec 16) (s : State),
    (∃ t, exec (.classify h) s = .next t ∧
      match s.rate with
      | .k150 => ClassifyEnds 108 132 216 264 h s t
      | .k300 => ClassifyEnds 54 66 108 132 h s t
      | .k600 => ClassifyEnds 27 33 54 66 h s t
      | .k1200 => ClassifyEnds 14 16 27 33 h s t) ∧
    ∀ P : Config.Build, P.Legal → ∃ t, execIn P (.classify h) s = .next t ∧
      ClassifyEnds ((9 * t0h P s.rate + 9) / 10) (11 * t0h P s.rate / 10) ((9 * t1h P s.rate + 9) / 10)
        (11 * t1h P s.rate / 10) h s t

/-! ## RX -/

/-- R94 and R106 at acceptance: in Standard mode RX completes at once with kind 0 and nothing else changed; in Bidirectional mode it
releases the line and starts the switching delay. -/
def Obligations.RxAcceptance : Prop :=
  ∀ s : State, ∃ t, exec .rx s = .next t ∧
    (s.mode = .standard → t.CompletedWith 0#32 ∧ Untouched s t) ∧
    (s.mode = .bidirectional →
      t.phase = .switch ∧ t.busy = true ∧ t.cnt = 0 ∧ t.lineOe = false ∧ t.shreg = s.shreg ∧ t.bitIdx = s.bitIdx ∧
      t.samples = s.samples ∧ t.result = s.result ∧ t.owned = s.owned ∧ SameConfig s t ∧ SameValidator s t ∧
      SameStatus s t ∧ SameInputs s t)

/-- R103, R104, R105 at the tick in which RX completes, in every build: a full window ends it with the outcome of its samples, the
last waiting tick without an edge with `Timeout`; the counters, the fault, the status group and RESULT are those of the
outcome. And the outcome is that of R101's chain, in every legal build. -/
def Obligations.RxCompletionCounts : Prop :=
  (∀ (P : Config.Build) (s : State), s.pins.rst = false → s.busy = true →
    (s.phase = .capture → s.cnt + 1 = window P s.rate →
      ∃ t, stepIn P s = .next t ∧ RxEnds s t (outcomeOf P (answerOf P (s.samples ++ [s.pins.lineIn]) s.rate))) ∧
    (s.phase = .listen → s.cnt + 1 = P.tRxTimeout → s.pins.lineIn = true →
      ∃ t, stepIn P s = .next t ∧ RxEnds s t .timeout)) ∧
  ∀ P : Config.Build, P.Legal → OutcomeChain P

/-- R97, R98, R101 against the abstraction of R107, in every build of R7: whatever the wire does during SWITCH, a reply that
begins after `k` high ticks of LISTEN ends RX after `T_SWITCH_TICKS + k + W` ticks with the outcome of the answer its
samples are. The accepting tick is a step of its own before them (assumption log 8). -/
def Obligations.RxTicksMatchAbstraction : Prop :=
  ∀ P : Config.Build, P.Legal →
  ∀ (s : State) (quiet after : List TickIn) (k : Nat) (reply : List Level),
    s.Accepts .rx → s.mode = .bidirectional →
    s.env = quiet ++ ticksOf (List.replicate k true) ++ ticksOf reply ++ after →
    quiet.length = 1 + P.tSwitch → (∀ p ∈ quiet, p.rst = false) → k < P.tRxTimeout →
    reply.length = window P s.rate → reply.head? = some false →
    (∀ j, 0 < j → j < 1 + P.tSwitch + k + window P s.rate → ∃ t, runTicks P j s = .next t ∧ t.busy = true) ∧
    ∃ t, runTicks P (1 + P.tSwitch + k + window P s.rate) s = .next t ∧
      RxEnds s t (outcomeOf P (answerOf P reply s.rate))

/-- R97, R98, R148, in every build of R7: with the wire high for all of LISTEN, RX ends in `Timeout` after
`T_SWITCH_TICKS + T_RX_TIMEOUT_TICKS` ticks and the counters stay. The accepting tick is a step of its own before them
(assumption log 8). -/
def Obligations.RxTimesOutOnSilence : Prop :=
  ∀ P : Config.Build, P.Legal →
  ∀ (s : State) (quiet after : List TickIn), s.Accepts .rx → s.mode = .bidirectional →
    s.env = quiet ++ ticksOf (List.replicate P.tRxTimeout true) ++ after →
    quiet.length = 1 + P.tSwitch → (∀ p ∈ quiet, p.rst = false) →
    ∃ t, runTicks P (1 + P.tSwitch + P.tRxTimeout) s = .next t ∧ RxEnds s t .timeout

/-- R99, R100, with R68's table (PRESUMED, assumption log 6) and whatever the clock: at every rate the reply that R108 describes
for the symbol of a telemetry word is recovered as that symbol. Of the symbols of words only: of other symbols R108 says it
too, and R99's procedure, which the model follows, does not give it (DEDUCED, assumption log 11). -/
def Obligations.NominalReplyIsRecovered : Prop :=
  ∀ P : Config.Build, P.Legal → ∀ (w : Frame) (r : Rate),
    answerOf P (nominalReply P (gcrEncodeWith Config.gcrTable w) r) r = .cells (gcrEncodeWith Config.gcrTable w)

/-- R99: the runs are the maximal runs of equal level in time order, each of at least one tick. -/
def Obligations.RunsAreMaximal : Prop :=
  ∀ l : List Level,
    ((runsOf l).flatMap fun g => List.replicate g.2 g.1) = l ∧ (∀ g ∈ runsOf l, 1 ≤ g.2) ∧
    ∀ (before after : List (Level × Nat)) (g h : Level × Nat), runsOf l = before ++ g :: h :: after → g.1 ≠ h.1

/-- R99: what is recovered is what the relation `Recovered` gives for the runs of the samples, so that a run is read as `n` cells
only if `n` is `d / T` to the nearest, from 1 to the cells still to read, and `d` is within 10 % of it, and `FramingError`
comes exactly when some run is neither read so nor the final high one, or the runs end before 21 cells; and it is 21 cells, the
first of them the low start cell if the samples begin low. -/
def Obligations.RecoverGivesTwentyOneCells : Prop :=
  ∀ P : Config.Build, P.Legal → ∀ (samples : List Level) (r : Rate),
    (∀ cells : List Level, recover P samples r = some cells ↔ Recovered (tcell P r) 21 (runsOf samples) cells) ∧
    (recover P samples r = none ↔ ∀ cells : List Level, ¬Recovered (tcell P r) 21 (runsOf samples) cells) ∧
    ∀ cells : List Level, recover P samples r = some cells →
      cells.length = 21 ∧ (samples.head? = some false → cells.head? = some false)

/-- R100: `raw20[19 - i]` is `cells[1 + i]`. -/
def Obligations.DeframeBits : Prop :=
  ∀ cells : List Level, cells.length = 21 → ∀ i, i < 20 → (deframe cells).getLsbD (19 - i) = cells.getD (1 + i) false

/-- The ticks of SWITCH, LISTEN and CAPTURE write only `phase`, `cnt`, `samples` and, at completion, the line, the counters, the
fault, the status group and RESULT (R28, R39, R97); the line stays released until then. -/
def Obligations.ReceiveTicksFrame : Prop :=
  ∀ s t : State, s.pins.rst = false → s.phase.released → step s = .next t →
    SameConfig s t ∧ t.owned = s.owned ∧ t.shreg = s.shreg ∧ t.bitIdx = s.bitIdx ∧
    t.host = s.hostLater ∧ t.env = s.env.tail ∧ (s.phase = .switch → t.samples = s.samples) ∧
    (t.busy = true → SameStatus s t ∧ SameValidator s t ∧ t.result = s.result ∧ t.lineOe = s.lineOe)

/-! ## Control operations -/

/-- R109, R110: all four fields at once and the idle level of the new mode, or for Bidirectional at 150k `InvalidConfig` and nothing
changed. -/
def Obligations.ConfigResult : Prop :=
  ∀ (r : Rate) (m : Mode) (a : Bool) (n : BitVec 8) (s : State), ∃ t, exec (.config r m a n) s = .next t ∧
    (m = .bidirectional ∧ r = .k150 → t.RaisedWith .invalidConfig ∧ Untouched s t) ∧
    (¬(m = .bidirectional ∧ r = .k150) →
      t.CompletedWith 0#32 ∧ t.rate = r ∧ t.mode = m ∧ t.edtAdv = a ∧ t.thresh = n ∧
      t.regRead 2#3 = BitVec.ofNat 32 (256 * n.toNat + 8 * a.toNat + 4 * m.bit.toNat + r.code.toNat) ∧
      t.driven = some m.bit ∧ t.owned = s.owned ∧ SameValidator s t ∧ SameWork s t ∧ SameInputs s t)

/-- R111: CLAIM sets `owned`, or raises `ResourceBusy` if it is set. -/
def Obligations.ClaimResult : Prop :=
  ∀ s : State, ∃ t, exec .claim s = .next t ∧
    (s.owned = false → t.CompletedWith 0#32 ∧ t.owned = true ∧ SameConfig s t ∧ SameValidator s t ∧ SameLine s t ∧
      SameWork s t ∧ SameInputs s t) ∧
    (s.owned = true → t.RaisedWith .resourceBusy ∧ Untouched s t)

/-- R112: REINIT clears `fault`, `crc_fail` and `discard` and keeps CFG and `owned`, with nothing on the wire. -/
def Obligations.ReinitResult : Prop :=
  ∀ s : State, ∃ t, exec .reinit s = .next t ∧ t.CompletedWith 0#32 ∧ t.fault = false ∧ t.crcFail = 0#8 ∧
    t.discard = 0#16 ∧ t.owned = s.owned ∧ SameConfig s t ∧ SameLine s t ∧ SameWork s t ∧ SameInputs s t

/-- R53, R146: the pseudo-operation STOP always reaches the wire: from a ready block, whatever `fault` is and in either mode, its
second word starts the transmission of a stop frame. STOP is the two host acts of assumption log 14, the second of them
`txResult`; the premise NoReset says that no reset comes in the list of ticks, and after it none comes (assumption log 2). -/
def Obligations.StopAlwaysReachesTheWire : Prop :=
  ∀ (s : State) (later : List HostAct), s.Ready → s.NoReset → s.host = pseudoStop ++ later →
    ∃ u v, step s = .next u ∧ step u = .next v ∧ v.phase = .tx ∧ v.busy = true ∧ payloadOf v.shreg = 0#11 ∧
      tflagOf v.shreg = false ∧ crcRight v.shreg s.mode ∧ v.host = later ∧ v.fault = s.fault

/-! ## Registers -/

/-- R18 to R22: every field of the five registers in its place, every reserved bit and every unmapped index 0. -/
def Obligations.RegisterLayouts : Prop :=
  ∀ s : State,
    ((s.regRead 0#3).getLsbD 0 = s.busy ∧ (s.regRead 0#3).getLsbD 1 = s.done ∧ (s.regRead 0#3).getLsbD 2 = s.err ∧
      (s.regRead 0#3).getLsbD 3 = false ∧ (s.regRead 0#3).extractLsb' 4 4 = s.errcode.code ∧
      (s.regRead 0#3).getLsbD 8 = s.fault ∧ (s.regRead 0#3).getLsbD 9 = s.owned ∧
      (s.regRead 0#3).extractLsb' 10 3 = s.phase.code ∧ (s.regRead 0#3).extractLsb' 13 19 = 0#19) ∧
    s.regRead 1#3 = s.result ∧
    ((s.regRead 2#3).extractLsb' 0 2 = s.rate.code ∧ (s.regRead 2#3).getLsbD 2 = s.mode.bit ∧
      (s.regRead 2#3).getLsbD 3 = s.edtAdv ∧ (s.regRead 2#3).extractLsb' 4 4 = 0#4 ∧
      (s.regRead 2#3).extractLsb' 8 8 = s.thresh ∧ (s.regRead 2#3).extractLsb' 16 16 = 0#16) ∧
    (s.regRead 3#3).toNat = s.crcFail.toNat ∧ (s.regRead 4#3).toNat = s.discard.toNat ∧
    ∀ i : BitVec 3, 5 ≤ i.toNat → s.regRead i = 0#32

/-- R115, R23: the codes of the errors in STATUS.ERRCODE, 0 for none, and the codes of the phases in STATUS.PHASE. -/
def Obligations.ErrorAndPhaseCodes : Prop :=
  ([ErrCode.none, .invalidPayload, .crcMismatch, .gcrFraming, .timeout, .framingError, .resourceBusy, .armTimeout,
      .channelFault, .invalidConfig, .illegalOp].map fun e => e.code.toNat) = [0, 1, 2, 3, 4, 5, 6, 7, 8, 9, 10] ∧
  ([Phase.idle, .tx, .trail, .switch, .listen, .capture].map fun p => p.code.toNat) = [0, 1, 2, 3, 4, 5]

/-- R39: while an operation takes its ticks, RESULT, CFG, CRC_FAIL and DISCARD do not change, nor any bit of STATUS but PHASE. -/
def Obligations.RegistersStableWhileBusy : Prop :=
  ∀ s t : State, s.busy = true → s.pins.rst = false → step s = .next t → t.busy = true →
    (∀ i : BitVec 3, i ≠ 0#3 → t.regRead i = s.regRead i) ∧
    ∀ b, ¬(10 ≤ b ∧ b ≤ 12) → (t.regRead 0#3).getLsbD b = (s.regRead 0#3).getLsbD b

/-! ## Rules about the whole machine -/

/-- The transitions of R23, and TX to IDLE without a trailing period only where `T_TRAIL_TICKS` = 0 (R85, R86; assumption
log 12). -/
def Obligations.PhaseTransitions : Prop :=
  ∀ s t : State, s.pins.rst = false → step s = .next t →
    match s.phase with
    | .idle => t.phase = .idle ∨ t.phase = .tx ∨ t.phase = .switch
    | .tx => t.phase = .tx ∨ (t.phase = .trail ∧ Config.tTrail ≠ 0) ∨ (t.phase = .idle ∧ Config.tTrail = 0)
    | .trail => t.phase = .trail ∨ t.phase = .idle
    | .switch => t.phase = .switch ∨ t.phase = .listen
    | .listen => t.phase = .listen ∨ t.phase = .capture ∨ t.phase = .idle
    | .capture => t.phase = .capture ∨ t.phase = .idle

/-- R129: the block leaves IDLE only by accepting a TX word with a valid CRC, or an RX word in Bidirectional mode. -/
def Obligations.OnlyTxAndRxLeaveIdle : Prop :=
  ∀ s t : State, s.phase = .idle → step s = .next t → t.phase ≠ .idle →
    (∃ f, s.Accepts (.tx f) ∧ frameValid s.mode f = true) ∨ (s.Accepts .rx ∧ s.mode = .bidirectional)

/-- R17, R122: `fault` is cleared only by REINIT or reset, and set only by an RX that completes with `CrcMismatch` and a count at or
above a threshold that is not 0. -/
def Obligations.FaultChangesOnlyAsSpecified : Prop :=
  ∀ s t : State, step s = .next t →
    (s.fault = true → t.fault = false → s.pins.rst = true ∨ s.Accepts .reinit) ∧
    (s.fault = false → t.fault = true →
      s.phase = .capture ∧ t.RaisedWith .crcMismatch ∧ t.thresh ≠ 0#8 ∧ t.thresh.toNat ≤ t.crcFail.toNat)

/-- R17, R111: `owned` is set only by CLAIM and cleared only by reset. -/
def Obligations.OwnedChangesOnlyByClaimOrReset : Prop :=
  ∀ s t : State, step s = .next t →
    (s.owned = false → t.owned = true → s.Accepts .claim) ∧ (s.owned = true → t.owned = false → s.pins.rst = true)

/-- R21, R22: the counters are written only by an RX that completes, by REINIT and by reset. -/
def Obligations.CountersChangeOnlyByRxOrReinit : Prop :=
  ∀ s t : State, step s = .next t → t.crcFail ≠ s.crcFail ∨ t.discard ≠ s.discard →
    s.pins.rst = true ∨ s.Accepts .reinit ∨ (s.phase = .capture ∧ t.phase = .idle)

/-- R20: CFG is written only by a CONFIG that passes its check, all fields at once, and by reset. -/
def Obligations.CfgChangesOnlyByConfig : Prop :=
  ∀ s t : State, s.pins.rst = false → step s = .next t → t.regRead 2#3 ≠ s.regRead 2#3 →
    s.Accepts (.config t.rate t.mode t.edtAdv t.thresh) ∧ ¬(t.mode = .bidirectional ∧ t.rate = .k150)

/-- R97, R129: `line_in` is looked at only in LISTEN and CAPTURE: in any other phase a step is the same whatever it is. And R33:
the register index of a tick is looked at by no step, in any phase: a RegRead changes no state and delays nothing. -/
def Obligations.LineInIgnoredElsewhere : Prop :=
  (∀ (s : State) (p : TickIn) (later : List TickIn) (l : Level), s.env = p :: later → s.phase ≠ .listen →
    s.phase ≠ .capture → step { s with env := { p with lineIn := l } :: later } = step s) ∧
  ∀ (s : State) (p : TickIn) (later : List TickIn) (i : BitVec 3), s.env = p :: later →
    step { s with env := { p with regIdx := i } :: later } = step s

/-- R122: `fault` changes no operation's behaviour, at acceptance and in every later tick: with another value of it a step ends
in the same state but for that flag, which then keeps its value unless reset or REINIT clears it, or the step is the end of an
RX that sets it by R105 whatever it was. -/
def Obligations.FaultStopsNoOperation : Prop :=
  (∀ (i : Instr) (s : State) (b : Bool), ∃ t, exec i s = .next t ∧
    exec i { s with fault := b } = .next { t with fault := if i = .reinit then false else b }) ∧
  ∀ (s t : State) (b : Bool), step s = .next t → ∃ c, step { s with fault := b } = .next { t with fault := c } ∧
    (s.pins.rst = true ∨ s.Accepts .reinit → c = false) ∧
    (¬(s.pins.rst = true ∨ s.Accepts .reinit) → c = b ∨
      (c = true ∧ s.phase = .capture ∧ t.RaisedWith .crcMismatch ∧ t.thresh ≠ 0#8 ∧ t.thresh.toNat ≤ t.crcFail.toNat))
end

