-- ==== Sys2Proof/Laws/State.lean ====
section
/-! SUPPORT. One lemma per field per update of State: no later proof unfolds a record update. -/

namespace Sys2Proof.Machine

/-! ### State.drive -/

@[simp] theorem State.drive_rate (s : State) (L : Level) : (s.drive L).rate = s.rate := rfl
@[simp] theorem State.drive_mode (s : State) (L : Level) : (s.drive L).mode = s.mode := rfl
@[simp] theorem State.drive_edtAdv (s : State) (L : Level) : (s.drive L).edtAdv = s.edtAdv := rfl
@[simp] theorem State.drive_thresh (s : State) (L : Level) : (s.drive L).thresh = s.thresh := rfl
@[simp] theorem State.drive_busy (s : State) (L : Level) : (s.drive L).busy = s.busy := rfl
@[simp] theorem State.drive_done (s : State) (L : Level) : (s.drive L).done = s.done := rfl
@[simp] theorem State.drive_err (s : State) (L : Level) : (s.drive L).err = s.err := rfl
@[simp] theorem State.drive_errcode (s : State) (L : Level) : (s.drive L).errcode = s.errcode := rfl
@[simp] theorem State.drive_fault (s : State) (L : Level) : (s.drive L).fault = s.fault := rfl
@[simp] theorem State.drive_owned (s : State) (L : Level) : (s.drive L).owned = s.owned := rfl
@[simp] theorem State.drive_phase (s : State) (L : Level) : (s.drive L).phase = s.phase := rfl
@[simp] theorem State.drive_result (s : State) (L : Level) : (s.drive L).result = s.result := rfl
@[simp] theorem State.drive_crcFail (s : State) (L : Level) : (s.drive L).crcFail = s.crcFail := rfl
@[simp] theorem State.drive_discard (s : State) (L : Level) : (s.drive L).discard = s.discard := rfl
@[simp] theorem State.drive_shreg (s : State) (L : Level) : (s.drive L).shreg = s.shreg := rfl
@[simp] theorem State.drive_bitIdx (s : State) (L : Level) : (s.drive L).bitIdx = s.bitIdx := rfl
@[simp] theorem State.drive_cnt (s : State) (L : Level) : (s.drive L).cnt = s.cnt := rfl
@[simp] theorem State.drive_samples (s : State) (L : Level) : (s.drive L).samples = s.samples := rfl
@[simp] theorem State.drive_lineOut (s : State) (L : Level) : (s.drive L).lineOut = (L ^^ s.mode.bit) := rfl
@[simp] theorem State.drive_lineOe (s : State) (L : Level) : (s.drive L).lineOe = true := rfl
@[simp] theorem State.drive_host (s : State) (L : Level) : (s.drive L).host = s.host := rfl
@[simp] theorem State.drive_env (s : State) (L : Level) : (s.drive L).env = s.env := rfl

/-! ### State.release -/

@[simp] theorem State.release_rate (s : State) : s.release.rate = s.rate := rfl
@[simp] theorem State.release_mode (s : State) : s.release.mode = s.mode := rfl
@[simp] theorem State.release_edtAdv (s : State) : s.release.edtAdv = s.edtAdv := rfl
@[simp] theorem State.release_thresh (s : State) : s.release.thresh = s.thresh := rfl
@[simp] theorem State.release_busy (s : State) : s.release.busy = s.busy := rfl
@[simp] theorem State.release_done (s : State) : s.release.done = s.done := rfl
@[simp] theorem State.release_err (s : State) : s.release.err = s.err := rfl
@[simp] theorem State.release_errcode (s : State) : s.release.errcode = s.errcode := rfl
@[simp] theorem State.release_fault (s : State) : s.release.fault = s.fault := rfl
@[simp] theorem State.release_owned (s : State) : s.release.owned = s.owned := rfl
@[simp] theorem State.release_phase (s : State) : s.release.phase = s.phase := rfl
@[simp] theorem State.release_result (s : State) : s.release.result = s.result := rfl
@[simp] theorem State.release_crcFail (s : State) : s.release.crcFail = s.crcFail := rfl
@[simp] theorem State.release_discard (s : State) : s.release.discard = s.discard := rfl
@[simp] theorem State.release_shreg (s : State) : s.release.shreg = s.shreg := rfl
@[simp] theorem State.release_bitIdx (s : State) : s.release.bitIdx = s.bitIdx := rfl
@[simp] theorem State.release_cnt (s : State) : s.release.cnt = s.cnt := rfl
@[simp] theorem State.release_samples (s : State) : s.release.samples = s.samples := rfl
@[simp] theorem State.release_lineOut (s : State) : s.release.lineOut = s.lineOut := rfl
@[simp] theorem State.release_lineOe (s : State) : s.release.lineOe = false := rfl
@[simp] theorem State.release_host (s : State) : s.release.host = s.host := rfl
@[simp] theorem State.release_env (s : State) : s.release.env = s.env := rfl

/-! ### State.complete -/

@[simp] theorem State.complete_rate (s : State) (r : Word) : (s.complete r).rate = s.rate := rfl
@[simp] theorem State.complete_mode (s : State) (r : Word) : (s.complete r).mode = s.mode := rfl
@[simp] theorem State.complete_edtAdv (s : State) (r : Word) : (s.complete r).edtAdv = s.edtAdv := rfl
@[simp] theorem State.complete_thresh (s : State) (r : Word) : (s.complete r).thresh = s.thresh := rfl
@[simp] theorem State.complete_busy (s : State) (r : Word) : (s.complete r).busy = false := rfl
@[simp] theorem State.complete_done (s : State) (r : Word) : (s.complete r).done = true := rfl
@[simp] theorem State.complete_err (s : State) (r : Word) : (s.complete r).err = false := rfl
@[simp] theorem State.complete_errcode (s : State) (r : Word) : (s.complete r).errcode = .none := rfl
@[simp] theorem State.complete_fault (s : State) (r : Word) : (s.complete r).fault = s.fault := rfl
@[simp] theorem State.complete_owned (s : State) (r : Word) : (s.complete r).owned = s.owned := rfl
@[simp] theorem State.complete_phase (s : State) (r : Word) : (s.complete r).phase = .idle := rfl
@[simp] theorem State.complete_result (s : State) (r : Word) : (s.complete r).result = r := rfl
@[simp] theorem State.complete_crcFail (s : State) (r : Word) : (s.complete r).crcFail = s.crcFail := rfl
@[simp] theorem State.complete_discard (s : State) (r : Word) : (s.complete r).discard = s.discard := rfl
@[simp] theorem State.complete_shreg (s : State) (r : Word) : (s.complete r).shreg = s.shreg := rfl
@[simp] theorem State.complete_bitIdx (s : State) (r : Word) : (s.complete r).bitIdx = s.bitIdx := rfl
@[simp] theorem State.complete_cnt (s : State) (r : Word) : (s.complete r).cnt = s.cnt := rfl
@[simp] theorem State.complete_samples (s : State) (r : Word) : (s.complete r).samples = s.samples := rfl
@[simp] theorem State.complete_lineOut (s : State) (r : Word) : (s.complete r).lineOut = s.lineOut := rfl
@[simp] theorem State.complete_lineOe (s : State) (r : Word) : (s.complete r).lineOe = s.lineOe := rfl
@[simp] theorem State.complete_host (s : State) (r : Word) : (s.complete r).host = s.host := rfl
@[simp] theorem State.complete_env (s : State) (r : Word) : (s.complete r).env = s.env := rfl

/-! ### State.raise -/

@[simp] theorem State.raise_rate (s : State) (e : ErrCode) : (s.raise e).rate = s.rate := rfl
@[simp] theorem State.raise_mode (s : State) (e : ErrCode) : (s.raise e).mode = s.mode := rfl
@[simp] theorem State.raise_edtAdv (s : State) (e : ErrCode) : (s.raise e).edtAdv = s.edtAdv := rfl
@[simp] theorem State.raise_thresh (s : State) (e : ErrCode) : (s.raise e).thresh = s.thresh := rfl
@[simp] theorem State.raise_busy (s : State) (e : ErrCode) : (s.raise e).busy = false := rfl
@[simp] theorem State.raise_done (s : State) (e : ErrCode) : (s.raise e).done = true := rfl
@[simp] theorem State.raise_err (s : State) (e : ErrCode) : (s.raise e).err = true := rfl
@[simp] theorem State.raise_errcode (s : State) (e : ErrCode) : (s.raise e).errcode = e := rfl
@[simp] theorem State.raise_fault (s : State) (e : ErrCode) : (s.raise e).fault = s.fault := rfl
@[simp] theorem State.raise_owned (s : State) (e : ErrCode) : (s.raise e).owned = s.owned := rfl
@[simp] theorem State.raise_phase (s : State) (e : ErrCode) : (s.raise e).phase = .idle := rfl
@[simp] theorem State.raise_result (s : State) (e : ErrCode) : (s.raise e).result = 0#32 := rfl
@[simp] theorem State.raise_crcFail (s : State) (e : ErrCode) : (s.raise e).crcFail = s.crcFail := rfl
@[simp] theorem State.raise_discard (s : State) (e : ErrCode) : (s.raise e).discard = s.discard := rfl
@[simp] theorem State.raise_shreg (s : State) (e : ErrCode) : (s.raise e).shreg = s.shreg := rfl
@[simp] theorem State.raise_bitIdx (s : State) (e : ErrCode) : (s.raise e).bitIdx = s.bitIdx := rfl
@[simp] theorem State.raise_cnt (s : State) (e : ErrCode) : (s.raise e).cnt = s.cnt := rfl
@[simp] theorem State.raise_samples (s : State) (e : ErrCode) : (s.raise e).samples = s.samples := rfl
@[simp] theorem State.raise_lineOut (s : State) (e : ErrCode) : (s.raise e).lineOut = s.lineOut := rfl
@[simp] theorem State.raise_lineOe (s : State) (e : ErrCode) : (s.raise e).lineOe = s.lineOe := rfl
@[simp] theorem State.raise_host (s : State) (e : ErrCode) : (s.raise e).host = s.host := rfl
@[simp] theorem State.raise_env (s : State) (e : ErrCode) : (s.raise e).env = s.env := rfl

/-! ### State.clearStatus -/

@[simp] theorem State.clearStatus_rate (s : State) : s.clearStatus.rate = s.rate := rfl
@[simp] theorem State.clearStatus_mode (s : State) : s.clearStatus.mode = s.mode := rfl
@[simp] theorem State.clearStatus_edtAdv (s : State) : s.clearStatus.edtAdv = s.edtAdv := rfl
@[simp] theorem State.clearStatus_thresh (s : State) : s.clearStatus.thresh = s.thresh := rfl
@[simp] theorem State.clearStatus_busy (s : State) : s.clearStatus.busy = s.busy := rfl
@[simp] theorem State.clearStatus_done (s : State) : s.clearStatus.done = false := rfl
@[simp] theorem State.clearStatus_err (s : State) : s.clearStatus.err = false := rfl
@[simp] theorem State.clearStatus_errcode (s : State) : s.clearStatus.errcode = .none := rfl
@[simp] theorem State.clearStatus_fault (s : State) : s.clearStatus.fault = s.fault := rfl
@[simp] theorem State.clearStatus_owned (s : State) : s.clearStatus.owned = s.owned := rfl
@[simp] theorem State.clearStatus_phase (s : State) : s.clearStatus.phase = s.phase := rfl
@[simp] theorem State.clearStatus_result (s : State) : s.clearStatus.result = s.result := rfl
@[simp] theorem State.clearStatus_crcFail (s : State) : s.clearStatus.crcFail = s.crcFail := rfl
@[simp] theorem State.clearStatus_discard (s : State) : s.clearStatus.discard = s.discard := rfl
@[simp] theorem State.clearStatus_shreg (s : State) : s.clearStatus.shreg = s.shreg := rfl
@[simp] theorem State.clearStatus_bitIdx (s : State) : s.clearStatus.bitIdx = s.bitIdx := rfl
@[simp] theorem State.clearStatus_cnt (s : State) : s.clearStatus.cnt = s.cnt := rfl
@[simp] theorem State.clearStatus_samples (s : State) : s.clearStatus.samples = s.samples := rfl
@[simp] theorem State.clearStatus_lineOut (s : State) : s.clearStatus.lineOut = s.lineOut := rfl
@[simp] theorem State.clearStatus_lineOe (s : State) : s.clearStatus.lineOe = s.lineOe := rfl
@[simp] theorem State.clearStatus_host (s : State) : s.clearStatus.host = s.host := rfl
@[simp] theorem State.clearStatus_env (s : State) : s.clearStatus.env = s.env := rfl

/-! ### State.advance -/

@[simp] theorem State.advance_rate (s : State) : s.advance.rate = s.rate := rfl
@[simp] theorem State.advance_mode (s : State) : s.advance.mode = s.mode := rfl
@[simp] theorem State.advance_edtAdv (s : State) : s.advance.edtAdv = s.edtAdv := rfl
@[simp] theorem State.advance_thresh (s : State) : s.advance.thresh = s.thresh := rfl
@[simp] theorem State.advance_busy (s : State) : s.advance.busy = s.busy := rfl
@[simp] theorem State.advance_done (s : State) : s.advance.done = s.done := rfl
@[simp] theorem State.advance_err (s : State) : s.advance.err = s.err := rfl
@[simp] theorem State.advance_errcode (s : State) : s.advance.errcode = s.errcode := rfl
@[simp] theorem State.advance_fault (s : State) : s.advance.fault = s.fault := rfl
@[simp] theorem State.advance_owned (s : State) : s.advance.owned = s.owned := rfl
@[simp] theorem State.advance_phase (s : State) : s.advance.phase = s.phase := rfl
@[simp] theorem State.advance_result (s : State) : s.advance.result = s.result := rfl
@[simp] theorem State.advance_crcFail (s : State) : s.advance.crcFail = s.crcFail := rfl
@[simp] theorem State.advance_discard (s : State) : s.advance.discard = s.discard := rfl
@[simp] theorem State.advance_shreg (s : State) : s.advance.shreg = s.shreg := rfl
@[simp] theorem State.advance_bitIdx (s : State) : s.advance.bitIdx = s.bitIdx := rfl
@[simp] theorem State.advance_cnt (s : State) : s.advance.cnt = s.cnt := rfl
@[simp] theorem State.advance_samples (s : State) : s.advance.samples = s.samples := rfl
@[simp] theorem State.advance_lineOut (s : State) : s.advance.lineOut = s.lineOut := rfl
@[simp] theorem State.advance_lineOe (s : State) : s.advance.lineOe = s.lineOe := rfl
@[simp] theorem State.advance_host (s : State) : s.advance.host = s.hostLater := rfl
@[simp] theorem State.advance_env (s : State) : s.advance.env = s.env.tail := rfl

/-! ### State.accepted -/

@[simp] theorem State.accepted_rate (s : State) : s.accepted.rate = s.rate := rfl
@[simp] theorem State.accepted_mode (s : State) : s.accepted.mode = s.mode := rfl
@[simp] theorem State.accepted_edtAdv (s : State) : s.accepted.edtAdv = s.edtAdv := rfl
@[simp] theorem State.accepted_thresh (s : State) : s.accepted.thresh = s.thresh := rfl
@[simp] theorem State.accepted_busy (s : State) : s.accepted.busy = s.busy := rfl
@[simp] theorem State.accepted_done (s : State) : s.accepted.done = false := rfl
@[simp] theorem State.accepted_err (s : State) : s.accepted.err = false := rfl
@[simp] theorem State.accepted_errcode (s : State) : s.accepted.errcode = .none := rfl
@[simp] theorem State.accepted_fault (s : State) : s.accepted.fault = s.fault := rfl
@[simp] theorem State.accepted_owned (s : State) : s.accepted.owned = s.owned := rfl
@[simp] theorem State.accepted_phase (s : State) : s.accepted.phase = s.phase := rfl
@[simp] theorem State.accepted_result (s : State) : s.accepted.result = s.result := rfl
@[simp] theorem State.accepted_crcFail (s : State) : s.accepted.crcFail = s.crcFail := rfl
@[simp] theorem State.accepted_discard (s : State) : s.accepted.discard = s.discard := rfl
@[simp] theorem State.accepted_shreg (s : State) : s.accepted.shreg = s.shreg := rfl
@[simp] theorem State.accepted_bitIdx (s : State) : s.accepted.bitIdx = s.bitIdx := rfl
@[simp] theorem State.accepted_cnt (s : State) : s.accepted.cnt = s.cnt := rfl
@[simp] theorem State.accepted_samples (s : State) : s.accepted.samples = s.samples := rfl
@[simp] theorem State.accepted_lineOut (s : State) : s.accepted.lineOut = s.mode.bit := by simp [State.accepted, State.clearStatus, State.drive]
@[simp] theorem State.accepted_lineOe (s : State) : s.accepted.lineOe = true := rfl
@[simp] theorem State.accepted_host (s : State) : s.accepted.host = s.host.tail := rfl
@[simp] theorem State.accepted_env (s : State) : s.accepted.env = s.env.tail := rfl

/-! ### State.countDiscard -/

@[simp] theorem State.countDiscard_rate (s : State) : s.countDiscard.rate = s.rate := rfl
@[simp] theorem State.countDiscard_mode (s : State) : s.countDiscard.mode = s.mode := rfl
@[simp] theorem State.countDiscard_edtAdv (s : State) : s.countDiscard.edtAdv = s.edtAdv := rfl
@[simp] theorem State.countDiscard_thresh (s : State) : s.countDiscard.thresh = s.thresh := rfl
@[simp] theorem State.countDiscard_busy (s : State) : s.countDiscard.busy = s.busy := rfl
@[simp] theorem State.countDiscard_done (s : State) : s.countDiscard.done = s.done := rfl
@[simp] theorem State.countDiscard_err (s : State) : s.countDiscard.err = s.err := rfl
@[simp] theorem State.countDiscard_errcode (s : State) : s.countDiscard.errcode = s.errcode := rfl
@[simp] theorem State.countDiscard_fault (s : State) : s.countDiscard.fault = s.fault := rfl
@[simp] theorem State.countDiscard_owned (s : State) : s.countDiscard.owned = s.owned := rfl
@[simp] theorem State.countDiscard_phase (s : State) : s.countDiscard.phase = s.phase := rfl
@[simp] theorem State.countDiscard_result (s : State) : s.countDiscard.result = s.result := rfl
@[simp] theorem State.countDiscard_crcFail (s : State) : s.countDiscard.crcFail = s.crcFail := rfl
@[simp] theorem State.countDiscard_discard (s : State) : s.countDiscard.discard = satIncr s.discard := rfl
@[simp] theorem State.countDiscard_shreg (s : State) : s.countDiscard.shreg = s.shreg := rfl
@[simp] theorem State.countDiscard_bitIdx (s : State) : s.countDiscard.bitIdx = s.bitIdx := rfl
@[simp] theorem State.countDiscard_cnt (s : State) : s.countDiscard.cnt = s.cnt := rfl
@[simp] theorem State.countDiscard_samples (s : State) : s.countDiscard.samples = s.samples := rfl
@[simp] theorem State.countDiscard_lineOut (s : State) : s.countDiscard.lineOut = s.lineOut := rfl
@[simp] theorem State.countDiscard_lineOe (s : State) : s.countDiscard.lineOe = s.lineOe := rfl
@[simp] theorem State.countDiscard_host (s : State) : s.countDiscard.host = s.host := rfl
@[simp] theorem State.countDiscard_env (s : State) : s.countDiscard.env = s.env := rfl

/-! ### State.countCrcFail -/

@[simp] theorem State.countCrcFail_rate (s : State) : s.countCrcFail.rate = s.rate := rfl
@[simp] theorem State.countCrcFail_mode (s : State) : s.countCrcFail.mode = s.mode := rfl
@[simp] theorem State.countCrcFail_edtAdv (s : State) : s.countCrcFail.edtAdv = s.edtAdv := rfl
@[simp] theorem State.countCrcFail_thresh (s : State) : s.countCrcFail.thresh = s.thresh := rfl
@[simp] theorem State.countCrcFail_busy (s : State) : s.countCrcFail.busy = s.busy := rfl
@[simp] theorem State.countCrcFail_done (s : State) : s.countCrcFail.done = s.done := rfl
@[simp] theorem State.countCrcFail_err (s : State) : s.countCrcFail.err = s.err := rfl
@[simp] theorem State.countCrcFail_errcode (s : State) : s.countCrcFail.errcode = s.errcode := rfl
@[simp] theorem State.countCrcFail_fault (s : State) : s.countCrcFail.fault = (s.fault || tripsFault s.thresh (satIncr s.crcFail)) := rfl
@[simp] theorem State.countCrcFail_owned (s : State) : s.countCrcFail.owned = s.owned := rfl
@[simp] theorem State.countCrcFail_phase (s : State) : s.countCrcFail.phase = s.phase := rfl
@[simp] theorem State.countCrcFail_result (s : State) : s.countCrcFail.result = s.result := rfl
@[simp] theorem State.countCrcFail_crcFail (s : State) : s.countCrcFail.crcFail = satIncr s.crcFail := rfl
@[simp] theorem State.countCrcFail_discard (s : State) : s.countCrcFail.discard = s.discard := rfl
@[simp] theorem State.countCrcFail_shreg (s : State) : s.countCrcFail.shreg = s.shreg := rfl
@[simp] theorem State.countCrcFail_bitIdx (s : State) : s.countCrcFail.bitIdx = s.bitIdx := rfl
@[simp] theorem State.countCrcFail_cnt (s : State) : s.countCrcFail.cnt = s.cnt := rfl
@[simp] theorem State.countCrcFail_samples (s : State) : s.countCrcFail.samples = s.samples := rfl
@[simp] theorem State.countCrcFail_lineOut (s : State) : s.countCrcFail.lineOut = s.lineOut := rfl
@[simp] theorem State.countCrcFail_lineOe (s : State) : s.countCrcFail.lineOe = s.lineOe := rfl
@[simp] theorem State.countCrcFail_host (s : State) : s.countCrcFail.host = s.host := rfl
@[simp] theorem State.countCrcFail_env (s : State) : s.countCrcFail.env = s.env := rfl

/-! ### State.txComplete -/

@[simp] theorem State.txComplete_rate (s : State) : s.txComplete.rate = s.rate := rfl
@[simp] theorem State.txComplete_mode (s : State) : s.txComplete.mode = s.mode := rfl
@[simp] theorem State.txComplete_edtAdv (s : State) : s.txComplete.edtAdv = s.edtAdv := rfl
@[simp] theorem State.txComplete_thresh (s : State) : s.txComplete.thresh = s.thresh := rfl
@[simp] theorem State.txComplete_busy (s : State) : s.txComplete.busy = false := rfl
@[simp] theorem State.txComplete_done (s : State) : s.txComplete.done = true := rfl
@[simp] theorem State.txComplete_err (s : State) : s.txComplete.err = false := rfl
@[simp] theorem State.txComplete_errcode (s : State) : s.txComplete.errcode = .none := rfl
@[simp] theorem State.txComplete_fault (s : State) : s.txComplete.fault = s.fault := rfl
@[simp] theorem State.txComplete_owned (s : State) : s.txComplete.owned = s.owned := rfl
@[simp] theorem State.txComplete_phase (s : State) : s.txComplete.phase = .idle := rfl
@[simp] theorem State.txComplete_result (s : State) : s.txComplete.result = s.shreg.setWidth 32 := rfl
@[simp] theorem State.txComplete_crcFail (s : State) : s.txComplete.crcFail = s.crcFail := rfl
@[simp] theorem State.txComplete_discard (s : State) : s.txComplete.discard = s.discard := rfl
@[simp] theorem State.txComplete_shreg (s : State) : s.txComplete.shreg = s.shreg := rfl
@[simp] theorem State.txComplete_bitIdx (s : State) : s.txComplete.bitIdx = s.bitIdx := rfl
@[simp] theorem State.txComplete_cnt (s : State) : s.txComplete.cnt = s.cnt := rfl
@[simp] theorem State.txComplete_samples (s : State) : s.txComplete.samples = s.samples := rfl
@[simp] theorem State.txComplete_lineOut (s : State) : s.txComplete.lineOut = s.lineOut := rfl
@[simp] theorem State.txComplete_lineOe (s : State) : s.txComplete.lineOe = s.lineOe := rfl
@[simp] theorem State.txComplete_host (s : State) : s.txComplete.host = s.host := rfl
@[simp] theorem State.txComplete_env (s : State) : s.txComplete.env = s.env := rfl

/-! ### State.resetBlock -/

@[simp] theorem State.resetBlock_rate (s : State) : s.resetBlock.rate = State.reset.rate := rfl
@[simp] theorem State.resetBlock_mode (s : State) : s.resetBlock.mode = State.reset.mode := rfl
@[simp] theorem State.resetBlock_edtAdv (s : State) : s.resetBlock.edtAdv = State.reset.edtAdv := rfl
@[simp] theorem State.resetBlock_thresh (s : State) : s.resetBlock.thresh = State.reset.thresh := rfl
@[simp] theorem State.resetBlock_busy (s : State) : s.resetBlock.busy = State.reset.busy := rfl
@[simp] theorem State.resetBlock_done (s : State) : s.resetBlock.done = State.reset.done := rfl
@[simp] theorem State.resetBlock_err (s : State) : s.resetBlock.err = State.reset.err := rfl
@[simp] theorem State.resetBlock_errcode (s : State) : s.resetBlock.errcode = State.reset.errcode := rfl
@[simp] theorem State.resetBlock_fault (s : State) : s.resetBlock.fault = State.reset.fault := rfl
@[simp] theorem State.resetBlock_owned (s : State) : s.resetBlock.owned = State.reset.owned := rfl
@[simp] theorem State.resetBlock_phase (s : State) : s.resetBlock.phase = State.reset.phase := rfl
@[simp] theorem State.resetBlock_result (s : State) : s.resetBlock.result = State.reset.result := rfl
@[simp] theorem State.resetBlock_crcFail (s : State) : s.resetBlock.crcFail = State.reset.crcFail := rfl
@[simp] theorem State.resetBlock_discard (s : State) : s.resetBlock.discard = State.reset.discard := rfl
@[simp] theorem State.resetBlock_shreg (s : State) : s.resetBlock.shreg = State.reset.shreg := rfl
@[simp] theorem State.resetBlock_bitIdx (s : State) : s.resetBlock.bitIdx = State.reset.bitIdx := rfl
@[simp] theorem State.resetBlock_cnt (s : State) : s.resetBlock.cnt = State.reset.cnt := rfl
@[simp] theorem State.resetBlock_samples (s : State) : s.resetBlock.samples = State.reset.samples := rfl
@[simp] theorem State.resetBlock_lineOut (s : State) : s.resetBlock.lineOut = State.reset.lineOut := rfl
@[simp] theorem State.resetBlock_lineOe (s : State) : s.resetBlock.lineOe = State.reset.lineOe := rfl
@[simp] theorem State.resetBlock_host (s : State) : s.resetBlock.host = s.host := rfl
@[simp] theorem State.resetBlock_env (s : State) : s.resetBlock.env = s.env := rfl

end Sys2Proof.Machine
end

