-- ==== Sys2Proof/Laws/Ops.lean ====
section
/-! SUPPORT. One lemma for each shared operation that says once what it does, and the inversion of a step. -/

namespace Sys2Proof.Machine

/-! ## Completion and raise -/

theorem State.complete_completedWith (s : State) (r : Word) : (s.complete r).CompletedWith r :=
  ⟨rfl, rfl, rfl, rfl, rfl, rfl⟩

theorem State.raise_raisedWith (s : State) (e : ErrCode) : (s.raise e).RaisedWith e :=
  ⟨rfl, rfl, rfl, rfl, rfl, rfl⟩

theorem State.complete_untouched (s : State) (r : Word) : Untouched s (s.complete r) :=
  ⟨⟨rfl, rfl, rfl, rfl⟩, ⟨rfl, rfl, rfl⟩, ⟨rfl, rfl⟩, ⟨rfl, rfl, rfl, rfl⟩, ⟨rfl, rfl⟩, rfl⟩

theorem State.raise_untouched (s : State) (e : ErrCode) : Untouched s (s.raise e) :=
  ⟨⟨rfl, rfl, rfl, rfl⟩, ⟨rfl, rfl, rfl⟩, ⟨rfl, rfl⟩, ⟨rfl, rfl, rfl, rfl⟩, ⟨rfl, rfl⟩, rfl⟩

/-! ## The port -/

@[simp] theorem State.accepted_pins_env (s : State) : s.accepted.env = s.advance.env := rfl

theorem State.driven_of_oe {s : State} (h : s.lineOe = true) : s.driven = some s.lineOut := by
  simp [State.driven, h]

theorem State.pins_cons {s : State} {p : TickIn} {ps : List TickIn} (h : s.env = p :: ps) : s.pins = p := by
  simp [State.pins, h]

theorem State.noReset_pins {s : State} (h : s.NoReset) : s.pins.rst = false := by
  unfold State.pins
  cases he : s.env with
  | nil => rfl
  | cons p ps => exact h p (by simp [he])

theorem State.noReset_tail {s t : State} (h : s.NoReset) (he : t.env = s.env.tail) : t.NoReset :=
  fun p hp => h p (List.mem_of_mem_tail (he ▸ hp))

theorem runTicks_add (P : Config.Build) (j k : Nat) (s : State) :
    runTicks P (j + k) s = match runTicks P j s with
      | .next t => runTicks P k t
      | .fault r => .fault r
      | .refused r => .refused r := by
  induction j generalizing s with
  | zero => simp [runTicks]
  | succ j ih =>
    rw [Nat.succ_add]
    simp only [runTicks]
    cases stepIn P s with
    | next t => exact ih t
    | fault r => rfl
    | refused r => rfl

theorem runTicks_succ_next {P : Config.Build} {k : Nat} {s t : State} (h : runTicks P k s = .next t) :
    runTicks P (k + 1) s = stepIn P t := by
  rw [runTicks_add, h]
  simp only [runTicks]
  cases stepIn P t <;> rfl

/-! ## The dispatch, arm by arm -/

@[simp] theorem exec_crc4 (v12 : V12) (inv : Bool) (s : State) : exec (.crc4 v12 inv) s = execCrc4 v12 inv s := rfl
@[simp] theorem exec_encThrottle (value : BitVec 16) (t : Bool) (s : State) : exec (.encThrottle value t) s = execEncThrottle value t s := rfl
@[simp] theorem exec_encCommand (value : BitVec 16) (t : Bool) (s : State) : exec (.encCommand value t) s = execEncCommand value t s := rfl
@[simp] theorem exec_decFrame (w16 : BitVec 16) (s : State) : exec (.decFrame w16) s = execDecFrame w16 s := rfl
@[simp] theorem exec_gcrDecode (raw20 : Raw) (s : State) : exec (.gcrDecode raw20) s = execGcrDecode raw20 s := rfl
@[simp] theorem exec_gcrEncode (w16 : BitVec 16) (s : State) : exec (.gcrEncode w16) s = execGcrEncode w16 s := rfl
@[simp] theorem exec_decTelemetry (w16 : BitVec 16) (s : State) : exec (.decTelemetry w16) s = execDecTelemetry w16 s := rfl
@[simp] theorem exec_tx (w16 : BitVec 16) (s : State) : exec (.tx w16) s = execTx w16 s := rfl
@[simp] theorem exec_rx (s : State) : exec .rx s = execRx s := rfl
@[simp] theorem exec_classify (h : BitVec 16) (s : State) : exec (.classify h) s = execClassify h s := rfl
@[simp] theorem exec_config (rate : Rate) (mode : Mode) (edtAdv : Bool) (thresh : BitVec 8) (s : State) : exec (.config rate mode edtAdv thresh) s = execConfig rate mode edtAdv thresh s := rfl
@[simp] theorem exec_claim (s : State) : exec .claim s = execClaim s := rfl
@[simp] theorem exec_reinit (s : State) : exec .reinit s = execReinit s := rfl

/-! ## The dispatch of a build, arm by arm -/

@[simp] theorem execIn_crc4 (P : Config.Build) (v12 : V12) (inv : Bool) (s : State) : execIn P (.crc4 v12 inv) s = execCrc4 v12 inv s := rfl
@[simp] theorem execIn_encThrottle (P : Config.Build) (value : BitVec 16) (t : Bool) (s : State) : execIn P (.encThrottle value t) s = encThrottleIn P value t s := rfl
@[simp] theorem execIn_encCommand (P : Config.Build) (value : BitVec 16) (t : Bool) (s : State) : execIn P (.encCommand value t) s = encCommandIn P value t s := rfl
@[simp] theorem execIn_decFrame (P : Config.Build) (w16 : BitVec 16) (s : State) : execIn P (.decFrame w16) s = decFrameIn P w16 s := rfl
@[simp] theorem execIn_gcrDecode (P : Config.Build) (raw20 : Raw) (s : State) : execIn P (.gcrDecode raw20) s = gcrDecodeIn P raw20 s := rfl
@[simp] theorem execIn_gcrEncode (P : Config.Build) (w16 : BitVec 16) (s : State) : execIn P (.gcrEncode w16) s = gcrEncodeIn P w16 s := rfl
@[simp] theorem execIn_decTelemetry (P : Config.Build) (w16 : BitVec 16) (s : State) : execIn P (.decTelemetry w16) s = decTelemetryIn P w16 s := rfl
@[simp] theorem execIn_tx (P : Config.Build) (w16 : BitVec 16) (s : State) : execIn P (.tx w16) s = execTx w16 s := rfl
@[simp] theorem execIn_rx (P : Config.Build) (s : State) : execIn P .rx s = execRx s := rfl
@[simp] theorem execIn_classify (P : Config.Build) (h : BitVec 16) (s : State) : execIn P (.classify h) s = classifyIn P h s := rfl
@[simp] theorem execIn_config (P : Config.Build) (rate : Rate) (mode : Mode) (edtAdv : Bool) (thresh : BitVec 8) (s : State) : execIn P (.config rate mode edtAdv thresh) s = configIn P rate mode edtAdv thresh s := rfl
@[simp] theorem execIn_claim (P : Config.Build) (s : State) : execIn P .claim s = execClaim s := rfl
@[simp] theorem execIn_reinit (P : Config.Build) (s : State) : execIn P .reinit s = execReinit s := rfl

/-- The operations of exec are those of its build. -/
theorem exec_eq_execIn (i : Instr) (s : State) : exec i s = execIn Config.build i s := by cases i <;> rfl

/-- The machine of the host is the one of its build. -/
theorem step_eq_stepIn (s : State) : step s = stepIn Config.build s := by
  have h : exec = execIn Config.build := funext fun i => funext fun s => exec_eq_execIn i s
  rw [step, stepIn, h]

/-! ## What an operation answers -/

/-- Every accepted operation answers a next state in every build: no operation stops. -/
theorem execIn_total (P : Config.Build) (i : Instr) (s : State) : ∃ t, execIn P i s = .next t := by
  cases i with
  | crc4 => exact ⟨_, rfl⟩
  | encThrottle => rw [execIn_encThrottle, encThrottleIn]; split <;> exact ⟨_, rfl⟩
  | encCommand => rw [execIn_encCommand, encCommandIn]; (repeat' split) <;> exact ⟨_, rfl⟩
  | decFrame => rw [execIn_decFrame, decFrameIn]; split <;> exact ⟨_, rfl⟩
  | gcrDecode => rw [execIn_gcrDecode, gcrDecodeIn]; split <;> exact ⟨_, rfl⟩
  | gcrEncode => exact ⟨_, rfl⟩
  | decTelemetry => rw [execIn_decTelemetry, decTelemetryIn]; split <;> exact ⟨_, rfl⟩
  | tx => rw [execIn_tx, execTx]; split <;> exact ⟨_, rfl⟩
  | rx => rw [execIn_rx, execRx]; split <;> exact ⟨_, rfl⟩
  | classify => rw [execIn_classify, classifyIn]; (repeat' split) <;> exact ⟨_, rfl⟩
  | config => rw [execIn_config, configIn]; split <;> exact ⟨_, rfl⟩
  | claim => rw [execIn_claim, execClaim]; split <;> exact ⟨_, rfl⟩
  | reinit => exact ⟨_, rfl⟩

/-- Every accepted operation answers a next state: no arm of exec stops. -/
theorem exec_total (i : Instr) (s : State) : ∃ t, exec i s = .next t := by
  rw [exec_eq_execIn]
  exact execIn_total _ i s

/-- All that an accepted operation can do (R28): complete or raise with nothing else changed, start TX or RX, or one of the
control operations. -/
theorem execIn_cases {P : Config.Build} {i : Instr} {s t : State} (h : execIn P i s = .next t) :
    (∃ r, t = s.complete r) ∨ (∃ e, e ≠ .none ∧ e ≠ .armTimeout ∧ e ≠ .channelFault ∧ t = s.raise e) ∨
    (∃ f, i = .tx f ∧ frameValid s.mode f = true ∧
      t = { s with shreg := f, bitIdx := 15#4, cnt := 0, phase := .tx, busy := true }) ∨
    (i = .rx ∧ s.mode = .bidirectional ∧ t = { s.release with phase := .switch, cnt := 0, busy := true }) ∨
    (∃ r m a n, i = .config r m a n ∧ configLegal P r m = true ∧
      t = ({ s with rate := r, mode := m, edtAdv := a, thresh := n }.drive false).complete 0#32) ∨
    (i = .claim ∧ s.owned = false ∧ t = { s with owned := true }.complete 0#32) ∨
    (i = .reinit ∧ t = { s with fault := false, crcFail := 0#8, discard := 0#16 }.complete 0#32) := by
  cases i with
  | crc4 => cases h; exact .inl ⟨_, rfl⟩
  | encThrottle =>
    rw [execIn_encThrottle, encThrottleIn] at h
    split at h <;> cases h
    · exact .inl ⟨_, rfl⟩
    · exact .inr (.inl ⟨_, by decide, by decide, by decide, rfl⟩)
  | encCommand =>
    rw [execIn_encCommand, encCommandIn] at h
    (repeat' split at h) <;> cases h
    · exact .inr (.inl ⟨_, by decide, by decide, by decide, rfl⟩)
    · exact .inr (.inl ⟨_, by decide, by decide, by decide, rfl⟩)
    · exact .inl ⟨_, rfl⟩
  | decFrame =>
    rw [execIn_decFrame, decFrameIn] at h
    split at h <;> cases h
    · exact .inr (.inl ⟨_, by decide, by decide, by decide, rfl⟩)
    · exact .inl ⟨_, rfl⟩
  | gcrDecode =>
    rw [execIn_gcrDecode, gcrDecodeIn] at h
    split at h <;> cases h
    · exact .inr (.inl ⟨_, by decide, by decide, by decide, rfl⟩)
    · exact .inl ⟨_, rfl⟩
  | gcrEncode => cases h; exact .inl ⟨_, rfl⟩
  | decTelemetry =>
    rw [execIn_decTelemetry, decTelemetryIn] at h
    split at h <;> cases h
    · exact .inr (.inl ⟨_, by decide, by decide, by decide, rfl⟩)
    · exact .inl ⟨_, rfl⟩
  | tx f =>
    rw [execIn_tx, execTx] at h
    split at h <;> cases h
    · exact .inr (.inl ⟨_, by decide, by decide, by decide, rfl⟩)
    · rename_i hv
      exact .inr (.inr (.inl ⟨f, rfl, by simpa using hv, rfl⟩))
  | rx =>
    rw [execIn_rx, execRx] at h
    split at h <;> cases h
    · exact .inl ⟨_, rfl⟩
    · exact .inr (.inr (.inr (.inl ⟨rfl, ‹_›, rfl⟩)))
  | classify =>
    rw [execIn_classify, classifyIn] at h
    (repeat' split at h) <;> cases h
    · exact .inl ⟨_, rfl⟩
    · exact .inl ⟨_, rfl⟩
    · exact .inr (.inl ⟨_, by decide, by decide, by decide, rfl⟩)
  | config r m a n =>
    rw [execIn_config, configIn] at h
    split at h <;> cases h
    · exact .inr (.inl ⟨_, by decide, by decide, by decide, rfl⟩)
    · rename_i hc
      exact .inr (.inr (.inr (.inr (.inl ⟨r, m, a, n, rfl, by simpa using hc, rfl⟩))))
  | claim =>
    rw [execIn_claim, execClaim] at h
    split at h <;> cases h
    · exact .inr (.inl ⟨_, by decide, by decide, by decide, rfl⟩)
    · rename_i ho
      exact .inr (.inr (.inr (.inr (.inr (.inl ⟨rfl, by simpa using ho, rfl⟩)))))
  | reinit => cases h; exact .inr (.inr (.inr (.inr (.inr (.inr ⟨rfl, rfl⟩)))))

/-! ## One tick of each phase -/

theorem State.tickTx_cases (P : Config.Build) (s : State) :
    (s.cnt + 1 ≠ tbit P s.rate ∧
      s.tickTx P = { s.drive (decide (s.cnt < highTime P s.rate s.txBit)) with cnt := s.cnt + 1 }) ∨
    (s.cnt + 1 = tbit P s.rate ∧ s.bitIdx ≠ 0#4 ∧
      s.tickTx P = { s.drive (decide (s.cnt < highTime P s.rate s.txBit)) with cnt := 0, bitIdx := s.bitIdx - 1#4 }) ∨
    (s.cnt + 1 = tbit P s.rate ∧ s.bitIdx = 0#4 ∧ P.tTrail ≠ 0 ∧
      s.tickTx P = { s.drive (decide (s.cnt < highTime P s.rate s.txBit)) with cnt := 0, phase := .trail }) ∨
    (s.cnt + 1 = tbit P s.rate ∧ s.bitIdx = 0#4 ∧ P.tTrail = 0 ∧
      s.tickTx P = { s.drive (decide (s.cnt < highTime P s.rate s.txBit)) with cnt := 0 }.txComplete) := by
  unfold State.tickTx
  by_cases hc : s.cnt + 1 = tbit P s.rate
  · by_cases hb : s.bitIdx = 0#4
    · by_cases ht : P.tTrail = 0
      · simp [hc, hb, ht, State.nextBit]
      · simp [hc, hb, ht, State.nextBit]
    · simp [hc, hb, State.nextBit]
  · simp [hc]

theorem State.tickTrail_cases (P : Config.Build) (s : State) :
    (s.cnt + 1 ≠ P.tTrail ∧ s.tickTrail P = { s.drive false with cnt := s.cnt + 1 }) ∨
    (s.cnt + 1 = P.tTrail ∧ s.tickTrail P = { s.drive false with cnt := s.cnt + 1 }.txComplete) := by
  unfold State.tickTrail
  by_cases hc : s.cnt + 1 = P.tTrail
  · simp [hc]
  · simp [hc]

theorem State.tickSwitch_cases (P : Config.Build) (s : State) :
    (s.cnt + 1 ≠ P.tSwitch ∧ s.tickSwitch P = { s with cnt := s.cnt + 1 }) ∨
    (s.cnt + 1 = P.tSwitch ∧ s.tickSwitch P = { s with phase := .listen, cnt := 0 }) := by
  unfold State.tickSwitch
  by_cases hc : s.cnt + 1 = P.tSwitch
  · exact .inr ⟨hc, if_pos hc⟩
  · exact .inl ⟨hc, if_neg hc⟩

theorem State.tickListen_cases (P : Config.Build) (s : State) (l : Level) :
    (l = false ∧ s.tickListen P l = { s with samples := [false], phase := .capture, cnt := 1 }) ∨
    (l = true ∧ s.cnt + 1 ≠ P.tRxTimeout ∧ s.tickListen P l = { s with cnt := s.cnt + 1 }) ∨
    (l = true ∧ s.cnt + 1 = P.tRxTimeout ∧ s.tickListen P l = { s with cnt := s.cnt + 1 }.finishRx .timeout) := by
  cases l with
  | false => exact .inl ⟨rfl, rfl⟩
  | true =>
    by_cases hc : s.cnt + 1 = P.tRxTimeout
    · exact .inr (.inr ⟨rfl, hc, by simp [State.tickListen, hc, outcomeOf]⟩)
    · exact .inr (.inl ⟨rfl, hc, by simp [State.tickListen, hc]⟩)

theorem State.tickCapture_cases (P : Config.Build) (s : State) (l : Level) :
    (s.cnt + 1 ≠ window P s.rate ∧ s.tickCapture P l = { s with samples := s.samples ++ [l], cnt := s.cnt + 1 }) ∨
    (s.cnt + 1 = window P s.rate ∧ s.tickCapture P l =
      { s with samples := s.samples ++ [l], cnt := s.cnt + 1 }.finishRx
        (outcomeOf P (answerOf P (s.samples ++ [l]) s.rate))) := by
  unfold State.tickCapture
  by_cases hc : s.cnt + 1 = window P s.rate
  · exact .inr ⟨hc, if_pos hc⟩
  · exact .inl ⟨hc, if_neg hc⟩

/-! ## The end of RX -/

/-- What every outcome of RX leaves alone (R28), and the status group it writes. -/
theorem State.finishRx_frame (s : State) (o : RxOutcome) :
    SameConfig s (s.finishRx o) ∧ SameWork s (s.finishRx o) ∧ SameInputs s (s.finishRx o) ∧
    (s.finishRx o).owned = s.owned ∧ (s.finishRx o).phase = .idle ∧ (s.finishRx o).busy = false ∧
    (s.finishRx o).done = true ∧ (s.finishRx o).lineOe = true ∧ (s.finishRx o).lineOut = s.mode.bit := by
  cases o <;>
    exact ⟨⟨rfl, rfl, rfl, rfl⟩, ⟨rfl, rfl, rfl, rfl⟩, ⟨rfl, rfl⟩, rfl, rfl, rfl, rfl, rfl,
      by simp [State.finishRx]⟩

/-- The code an outcome of RX is reported with (R101, R102). -/
def RxOutcome.code : RxOutcome → ErrCode
  | .timeout => .timeout
  | .framingError => .framingError
  | .gcrFraming => .gcrFraming
  | .crcMismatch => .crcMismatch
  | .valid _ => .none

theorem State.finishRx_errcode (s : State) (o : RxOutcome) : (s.finishRx o).errcode = o.code := by
  cases o <;> rfl

theorem State.finishRx_err (s : State) (o : RxOutcome) : (s.finishRx o).err = decide (o.code ≠ .none) := by
  cases o <;> rfl

/-! ## Inversion of a step -/

/-- All that one clock period can be, in any build. -/
theorem stepIn_cases {P : Config.Build} {s t : State} (h : stepIn P s = .next t) :
    (s.pins.rst = true ∧ t = s.advance.resetBlock) ∨
    (s.pins.rst = false ∧ s.busy = false ∧ s.phase = .idle ∧ s.presented = none ∧ t = s.advance.drive false) ∨
    (s.pins.rst = false ∧ s.busy = false ∧ s.phase = .idle ∧
      ∃ w, s.presented = some w ∧ ∃ e, decode w = .error e ∧ t = s.accepted.raise .illegalOp) ∨
    (s.pins.rst = false ∧ s.busy = false ∧ s.phase = .idle ∧
      ∃ w, s.presented = some w ∧ ∃ i, decode w = .ok i ∧ execIn P i s.accepted = .next t) ∨
    (s.pins.rst = false ∧ s.busy = true ∧ s.phase = .tx ∧ t = s.advance.tickTx P) ∨
    (s.pins.rst = false ∧ s.busy = true ∧ s.phase = .trail ∧ t = s.advance.tickTrail P) ∨
    (s.pins.rst = false ∧ s.busy = true ∧ s.phase = .switch ∧ t = s.advance.tickSwitch P) ∨
    (s.pins.rst = false ∧ s.busy = true ∧ s.phase = .listen ∧ t = s.advance.tickListen P s.pins.lineIn) ∨
    (s.pins.rst = false ∧ s.busy = true ∧ s.phase = .capture ∧ t = s.advance.tickCapture P s.pins.lineIn) := by
  unfold stepIn clockPeriod at h
  by_cases hr : s.pins.rst = true
  · rw [if_pos hr] at h
    exact .inl ⟨hr, by cases h; rfl⟩
  · rw [if_neg hr] at h
    have hr' : s.pins.rst = false := by simpa using hr
    refine .inr ?_
    by_cases hb : s.busy = s.inIdle
    · rw [if_pos hb] at h
      cases h
    · rw [if_neg hb] at h
      cases hp : s.phase with
      | idle =>
        have hb' : s.busy = false := by simpa [State.inIdle, hp] using hb
        rw [hp] at h
        simp only [portPeriod] at h
        cases hw : s.presented with
        | none =>
          rw [hw] at h
          exact .inl ⟨hr', hb', rfl, rfl, by cases h; rfl⟩
        | some w =>
          rw [hw] at h
          simp only [runWord] at h
          cases hd : decode w with
          | error e =>
            rw [hd] at h
            exact .inr (.inl ⟨hr', hb', rfl, w, rfl, e, hd, by cases h; rfl⟩)
          | ok i =>
            rw [hd] at h
            exact .inr (.inr (.inl ⟨hr', hb', rfl, w, rfl, i, hd, h⟩))
      | _ =>
        have hb' : s.busy = true := by simpa [State.inIdle, hp] using hb
        rw [hp] at h
        simp only [Host.Outcome.next.injEq] at h
        simp [hr', hb', h.symm]

/-- A step in a state that meets R29's `busy` = (`phase` ≠ IDLE) in which no reset comes, phase by phase. -/
theorem stepIn_ready {P : Config.Build} {s : State} (h : s.Ready) :
    stepIn P s = match s.presented with
      | some w => runWord (execIn P) w s.accepted
      | none => .next (s.advance.drive false) := by
  simp only [stepIn, clockPeriod, h.rst, h.busy, h.phase, State.inIdle]
  rfl

theorem stepIn_tx {P : Config.Build} {s : State} (hr : s.pins.rst = false) (hb : s.busy = true) (hp : s.phase = .tx) :
    stepIn P s = .next (s.advance.tickTx P) := by
  simp [stepIn, clockPeriod, hr, hb, hp, State.inIdle]

theorem stepIn_trail {P : Config.Build} {s : State} (hr : s.pins.rst = false) (hb : s.busy = true) (hp : s.phase = .trail) :
    stepIn P s = .next (s.advance.tickTrail P) := by
  simp [stepIn, clockPeriod, hr, hb, hp, State.inIdle]

theorem stepIn_switch {P : Config.Build} {s : State} (hr : s.pins.rst = false) (hb : s.busy = true) (hp : s.phase = .switch) :
    stepIn P s = .next (s.advance.tickSwitch P) := by
  simp [stepIn, clockPeriod, hr, hb, hp, State.inIdle]

theorem stepIn_listen {P : Config.Build} {s : State} (hr : s.pins.rst = false) (hb : s.busy = true) (hp : s.phase = .listen) :
    stepIn P s = .next (s.advance.tickListen P s.pins.lineIn) := by
  simp [stepIn, clockPeriod, hr, hb, hp, State.inIdle]

theorem stepIn_capture {P : Config.Build} {s : State} (hr : s.pins.rst = false) (hb : s.busy = true) (hp : s.phase = .capture) :
    stepIn P s = .next (s.advance.tickCapture P s.pins.lineIn) := by
  simp [stepIn, clockPeriod, hr, hb, hp, State.inIdle]

end Sys2Proof.Machine
end

