-- ==== Sys2Proof/Laws/PerInstr.lean ====
section
/-! SUPPORT. The per-instruction family OpcodeRow: the word an operation encodes to spells the row of spec rule R50 that has
the operation's mnemonic. -/

namespace Sys2Proof.Laws.OpcodeRow

/-- `encode i` spells a row of R50's table with `i`'s mnemonic. -/
def Statement (i : Instr) : Prop := ∃ r ∈ opRows, r.mnemonic = i.mnemonic ∧ r.spells (encode i) = true

theorem spells_V (op : BitVec 4) (value : BitVec 16) (t : Bool) :
    encodeV op value t &&& 0xFFFE0000#32 = op ++ 0#28 := by
  apply BitVec.eq_of_getLsbD_eq
  intro i hi
  simp only [encodeV, BitVec.getLsbD_and, BitVec.getLsbD_append]
  interval_cases i <;> simp

theorem spells_W (op : BitVec 4) (w16 : BitVec 16) : encodeW op w16 &&& 0xFFFF0000#32 = op ++ 0#28 := by
  apply BitVec.eq_of_getLsbD_eq
  intro i hi
  simp only [encodeW, BitVec.getLsbD_and, BitVec.getLsbD_append]
  interval_cases i <;> simp

theorem spells_G (op : BitVec 4) (raw20 : Raw) : encodeG op raw20 &&& 0xFFF00000#32 = op ++ 0#28 := by
  apply BitVec.eq_of_getLsbD_eq
  intro i hi
  simp only [encodeG, BitVec.getLsbD_and, BitVec.getLsbD_append]
  interval_cases i <;> simp

theorem spells_C (op : BitVec 4) (v12 : V12) (inv : Bool) : encodeC op v12 inv &&& 0xFFFFE000#32 = op ++ 0#28 := by
  apply BitVec.eq_of_getLsbD_eq
  intro i hi
  simp only [encodeC, BitVec.getLsbD_and, BitVec.getLsbD_append]
  interval_cases i <;> simp

theorem spells_K (op : BitVec 4) (rate : Rate) (mode : Mode) (edtAdv : Bool) (thresh : BitVec 8) :
    encodeK op rate mode edtAdv thresh &&& 0xFFFF00F0#32 = op ++ 0#28 := by
  apply BitVec.eq_of_getLsbD_eq
  intro i hi
  simp only [encodeK, BitVec.getLsbD_and, BitVec.getLsbD_append]
  interval_cases i <;> simp

theorem crc4 (v12 : V12) (inv : Bool) : Statement (.crc4 v12 inv) :=
  ⟨⟨"CRC4", 0x10000000#32, 0xFFFFE000#32⟩, by simp [opRows], rfl, by simp [OpRow.spells, encode, spells_C]⟩

theorem encThrottle (value : BitVec 16) (t : Bool) : Statement (.encThrottle value t) :=
  ⟨⟨"ENC_THROTTLE", 0x20000000#32, 0xFFFE0000#32⟩, by simp [opRows], rfl, by simp [OpRow.spells, encode, spells_V]⟩

theorem encCommand (value : BitVec 16) (t : Bool) : Statement (.encCommand value t) :=
  ⟨⟨"ENC_COMMAND", 0x30000000#32, 0xFFFE0000#32⟩, by simp [opRows], rfl, by simp [OpRow.spells, encode, spells_V]⟩

theorem decFrame (w16 : Frame) : Statement (.decFrame w16) :=
  ⟨⟨"DEC_FRAME", 0x40000000#32, 0xFFFF0000#32⟩, by simp [opRows], rfl, by simp [OpRow.spells, encode, spells_W]⟩

theorem gcrDecode (raw20 : Raw) : Statement (.gcrDecode raw20) :=
  ⟨⟨"GCR_DECODE", 0x50000000#32, 0xFFF00000#32⟩, by simp [opRows], rfl, by simp [OpRow.spells, encode, spells_G]⟩

theorem gcrEncode (w16 : BitVec 16) : Statement (.gcrEncode w16) :=
  ⟨⟨"GCR_ENCODE", 0x60000000#32, 0xFFFF0000#32⟩, by simp [opRows], rfl, by simp [OpRow.spells, encode, spells_W]⟩

theorem decTelemetry (w16 : Frame) : Statement (.decTelemetry w16) :=
  ⟨⟨"DEC_TELEMETRY", 0x70000000#32, 0xFFFF0000#32⟩, by simp [opRows], rfl, by simp [OpRow.spells, encode, spells_W]⟩

theorem tx (w16 : Frame) : Statement (.tx w16) :=
  ⟨⟨"TX", 0x80000000#32, 0xFFFF0000#32⟩, by simp [opRows], rfl, by simp [OpRow.spells, encode, spells_W]⟩

theorem rx : Statement .rx :=
  ⟨⟨"RX", 0x90000000#32, 0xFFFFFFFF#32⟩, by simp [opRows], rfl, by decide⟩

theorem classify (h : BitVec 16) : Statement (.classify h) :=
  ⟨⟨"CLASSIFY", 0xA0000000#32, 0xFFFF0000#32⟩, by simp [opRows], rfl, by simp [OpRow.spells, encode, spells_W]⟩

theorem config (rate : Rate) (mode : Mode) (edtAdv : Bool) (thresh : BitVec 8) :
    Statement (.config rate mode edtAdv thresh) :=
  ⟨⟨"CONFIG", 0xB0000000#32, 0xFFFF00F0#32⟩, by simp [opRows], rfl, by simp [OpRow.spells, encode, spells_K]⟩

theorem claim : Statement .claim :=
  ⟨⟨"CLAIM", 0xC0000000#32, 0xFFFFFFFF#32⟩, by simp [opRows], rfl, by decide⟩

theorem reinit : Statement .reinit :=
  ⟨⟨"REINIT", 0xD0000000#32, 0xFFFFFFFF#32⟩, by simp [opRows], rfl, by decide⟩

end Sys2Proof.Laws.OpcodeRow
end

