-- ==== Sys2Proof/Laws/Values.lean ====
section
/-! SUPPORT. One lemma for each shared function on values: durations, counters, tolerance, the CRC bit by bit, the inverse of a
quintet table, runs of levels, register reads. -/

namespace Sys2Proof.Machine

/-! ## Quintets (R68, R69) -/

theorem mem_nibbles (n : BitVec 4) : n ∈ nibbles := by
  have h : ∀ n : BitVec 4, n ∈ nibbles := by decide
  exact h n

/-- What an answer of the inverse means, for any table. -/
theorem gcrInv_sound {T : BitVec 4 → BitVec 5} {q : BitVec 5} {n : BitVec 4} (h : gcrInv T q = some n) : T n = q := by
  have := List.find?_some h
  simpa using this

/-- When the inverse has no answer, for any table. -/
theorem gcrInv_none {T : BitVec 4 → BitVec 5} {q : BitVec 5} : gcrInv T q = none ↔ ∀ n, T n ≠ q := by
  simp only [gcrInv, List.find?_eq_none, beq_iff_eq]
  exact ⟨fun h n => h n (mem_nibbles n), fun h n _ => h n⟩

/-- For an injective table the inverse is the inverse. -/
theorem gcrInv_apply {T : BitVec 4 → BitVec 5} (hT : ∀ a b, T a = T b → a = b) (n : BitVec 4) :
    gcrInv T (T n) = some n := by
  cases h : gcrInv T (T n) with
  | none => exact absurd rfl (gcrInv_none.mp h n)
  | some m => rw [hT _ _ (gcrInv_sound h)]

theorem gcrTable_injective (a b : BitVec 4) (h : Config.gcrTable a = Config.gcrTable b) : a = b := by
  have key : ∀ n : BitVec 4, gcrInv Config.gcrTable (Config.gcrTable n) = some n := by decide
  have := key a
  rw [h, key b] at this
  exact (Option.some.inj this).symm

/-! ## Durations (spec rules R82, R95, R96) -/

theorem build_legal : Config.build.Legal where
  throttleMin := rfl
  throttleMax := rfl
  cmdMin := rfl
  cmdMax := rfl
  rxCells := rfl
  minBidirRate := rfl
  rxRateNum := rfl
  rxRateDen := rfl
  jitterParts := rfl
  fClkHz := by decide
  tSwitch := by decide
  tRxTimeout := Nat.succ_pos _
  gcrTable := gcrTable_injective
  edtBit := by decide
  edtCommands v h := by
    simp only [Config.build, Config.isEdtCommand, Bool.and_eq_true, decide_eq_true_eq] at h
    exact h.1

@[simp] theorem tbit_k150 : tbit Config.build .k150 = 320 := by decide
@[simp] theorem tbit_k300 : tbit Config.build .k300 = 160 := by decide
@[simp] theorem tbit_k600 : tbit Config.build .k600 = 80 := by decide
@[simp] theorem tbit_k1200 : tbit Config.build .k1200 = 40 := by decide
@[simp] theorem tcell_k150 : tcell Config.build .k150 = 256 := by decide
@[simp] theorem tcell_k300 : tcell Config.build .k300 = 128 := by decide
@[simp] theorem tcell_k600 : tcell Config.build .k600 = 64 := by decide
@[simp] theorem tcell_k1200 : tcell Config.build .k1200 = 32 := by decide
@[simp] theorem window_k150 : window Config.build .k150 = 5914 := by decide
@[simp] theorem window_k300 : window Config.build .k300 = 2957 := by decide
@[simp] theorem window_k600 : window Config.build .k600 = 1479 := by decide
@[simp] theorem window_k1200 : window Config.build .k1200 = 740 := by decide

/-- The clock of a build as a multiple of the decided one. -/
def clockFactor (P : Config.Build) : Nat := P.fClkHz / 48000000

theorem clockFactor_pos {P : Config.Build} (h : P.Legal) : 0 < clockFactor P := by
  have := h.fClkHz
  unfold clockFactor
  omega

/-- Every duration of a legal build is that of the 48 MHz clock times the clock's factor (R8, R82, R95). -/
theorem tbit_scaled {P : Config.Build} (h : P.Legal) (r : Rate) : tbit P r = clockFactor P * tbit Config.build r := by
  have := h.fClkHz
  unfold clockFactor
  cases r <;> simp only [tbit_k150, tbit_k300, tbit_k600, tbit_k1200] <;> simp only [tbit, bitrate] <;> omega

theorem t1h_scaled {P : Config.Build} (h : P.Legal) (r : Rate) : t1h P r = clockFactor P * t1h Config.build r := by
  unfold t1h
  rw [tbit_scaled h]
  cases r <;> simp only [tbit_k150, tbit_k300, tbit_k600, tbit_k1200] <;> omega

theorem t0h_scaled {P : Config.Build} (h : P.Legal) (r : Rate) : t0h P r = clockFactor P * t0h Config.build r := by
  unfold t0h
  rw [tbit_scaled h]
  cases r <;> simp only [tbit_k150, tbit_k300, tbit_k600, tbit_k1200] <;> omega

theorem tcell_scaled {P : Config.Build} (h : P.Legal) (r : Rate) : tcell P r = clockFactor P * tcell Config.build r := by
  unfold tcell
  rw [tbit_scaled h, h.rxRateNum, h.rxRateDen]
  simp only [Config.build]
  cases r <;> simp only [tbit, bitrate] <;> omega

theorem tbit_pos {P : Config.Build} (h : P.Legal) (r : Rate) : 0 < tbit P r := by
  rw [tbit_scaled h]
  exact Nat.mul_pos (clockFactor_pos h) (by cases r <;> decide)

theorem tcell_pos {P : Config.Build} (h : P.Legal) (r : Rate) : 0 < tcell P r := by
  rw [tcell_scaled h]
  exact Nat.mul_pos (clockFactor_pos h) (by cases r <;> decide)

theorem highTime_pos {P : Config.Build} (h : P.Legal) (r : Rate) (b : Bool) : 0 < highTime P r b := by
  unfold highTime
  rw [t1h_scaled h, t0h_scaled h]
  split <;> exact Nat.mul_pos (clockFactor_pos h) (by cases r <;> decide)

theorem highTime_lt_tbit {P : Config.Build} (h : P.Legal) (r : Rate) (b : Bool) : highTime P r b < tbit P r := by
  unfold highTime
  rw [t1h_scaled h, t0h_scaled h, tbit_scaled h]
  split <;> exact Nat.mul_lt_mul_of_pos_left (by cases r <;> decide) (clockFactor_pos h)

/-- R96's formula. -/
theorem window_eq {P : Config.Build} (h : P.Legal) (r : Rate) : window P r = (231 * tcell P r + 9) / 10 := by
  unfold window
  rw [h.rxCells, h.jitterParts]

theorem window_gt_cells {P : Config.Build} (h : P.Legal) (r : Rate) : 21 * tcell P r < window P r := by
  have := tcell_pos h r
  rw [window_eq h]
  omega

theorem one_lt_window {P : Config.Build} (h : P.Legal) (r : Rate) : 1 < window P r := by
  have := tcell_pos h r
  have := window_gt_cells h r
  omega

/-! ## The configurations that are accepted (R20, R109) -/

theorem configLegal_iff {P : Config.Build} (h : P.Legal) (r : Rate) (m : Mode) :
    configLegal P r m = true ↔ ¬(m = .bidirectional ∧ r = .k150) := by
  unfold configLegal
  rw [h.minBidirRate]
  cases r <;> cases m <;> decide

/-! ## Counters and tolerance (R91, R104, R105) -/

theorem satIncr_toNat {n : Nat} (x : BitVec n) : (satIncr x).toNat = min (x.toNat + 1) (2 ^ n - 1) := by
  have h : 0 < 2 ^ n := Nat.two_pow_pos n
  rw [satIncr, BitVec.toNat_ofNat, Nat.mod_eq_of_lt]
  omega

theorem tripsFault_iff (thresh crcFail : BitVec 8) :
    tripsFault thresh crcFail = true ↔ thresh ≠ 0#8 ∧ thresh.toNat ≤ crcFail.toNat := by
  simp [tripsFault, BitVec.le_def]

theorem withinTol_iff {P : Config.Build} (h : P.Legal) (d T : Nat) :
    withinTol P d T = true ↔ 10 * d ≤ 11 * T ∧ 9 * T ≤ 10 * d := by
  unfold withinTol absDiff
  rw [decide_eq_true_iff, h.jitterParts]
  omega

/-! ## CRC (R54, R55) -/

theorem crc4_getLsbD (v : V12) (i : Nat) (h : i < 4) :
    (crc4 v).getLsbD i = (v.getLsbD i ^^ v.getLsbD (i + 4) ^^ v.getLsbD (i + 8)) := by
  simp only [crc4, BitVec.getLsbD_setWidth, BitVec.getLsbD_and, BitVec.getLsbD_xor, BitVec.getLsbD_ushiftRight]
  interval_cases i <;> simp

theorem crc4Tx_getLsbD (v : V12) (m : Mode) (i : Nat) (h : i < 4) :
    (crc4Tx v m).getLsbD i = (v.getLsbD i ^^ v.getLsbD (i + 4) ^^ v.getLsbD (i + 8) ^^ m.bit) := by
  cases m with
  | standard => simp [crc4Tx, crc4_getLsbD v i h, Mode.bit]
  | bidirectional =>
    simp only [crc4Tx, BitVec.getLsbD_xor, crc4_getLsbD v i h]
    interval_cases i <;> simp [Mode.bit]

/-! ## Runs (R99) -/

theorem runsOf_cons (x : Level) (xs : List Level) :
    (runsOf xs = [] ∧ runsOf (x :: xs) = [(x, 1)]) ∨
    (∃ d rest, runsOf xs = (x, d) :: rest ∧ runsOf (x :: xs) = (x, d + 1) :: rest) ∨
    (∃ y d rest, x ≠ y ∧ runsOf xs = (y, d) :: rest ∧ runsOf (x :: xs) = (x, 1) :: (y, d) :: rest) := by
  cases h : runsOf xs with
  | nil => exact .inl ⟨rfl, by simp [runsOf, h]⟩
  | cons g rest =>
    obtain ⟨y, d⟩ := g
    by_cases hxy : x = y
    · subst hxy
      exact .inr (.inl ⟨d, rest, rfl, by simp [runsOf, h]⟩)
    · exact .inr (.inr ⟨y, d, rest, hxy, rfl, by simp [runsOf, h, hxy]⟩)

/-! ## Registers (R18) -/

theorem State.regRead_status (s : State) : s.regRead 0#3 = s.statusWord := rfl
theorem State.regRead_result (s : State) : s.regRead 1#3 = s.result := rfl
theorem State.regRead_cfg (s : State) : s.regRead 2#3 = s.cfgWord := rfl
theorem State.regRead_crcFail (s : State) : s.regRead 3#3 = s.crcFailWord := rfl
theorem State.regRead_discard (s : State) : s.regRead 4#3 = s.discardWord := rfl

/-! ## Running (the host's interface) -/

/-- `runTicks` of the host's build is the run of the host's interface. -/
theorem runTicks_eq_run (k : Nat) (s : State) : runTicks Config.build k s = Host.Core.run
    { State := State, Fault := Fault, Refusal := Refusal, step := step, reset := State.reset } k s := by
  induction k generalizing s with
  | zero => rfl
  | succ k ih =>
    simp only [runTicks, Host.Core.run, step_eq_stepIn]
    cases stepIn Config.build s with
    | next t => exact ih t
    | fault r => rfl
    | refused r => rfl

end Sys2Proof.Machine
end

