-- ==== Sys2Proof/Machine/HostDuties.lean ====
section
/-! DEFINITION. What the spec requires of the host (spec rules R133, R134, R139 to R147, and the table of R63): premises on a
log of what the host did, never checked by the block (R139). `hostLogIn` is the log of a run; each duty is a Bool of a log,
and a claim that needs one takes it as a hypothesis. Where the rules are prose, the reading is the model's (assumption
logs 15, 20 and 21, and the docstrings). -/

namespace Sys2Proof.Machine

/-! ## Logs -/

/-- What the host does or sees in a tick, as far as a duty speaks of it. -/
inductive HostEvent where
  /-- The reset pin is high. -/
  | reset
  /-- A legal word of the host is accepted. -/
  | word (i : Instr)
  /-- The pin `alarm` goes to 1. -/
  | alarmRises
  deriving DecidableEq, Repr

/-- One event, with the number of its tick and the rate and mode in that tick. -/
structure Entry where
  tick  : Nat
  rate  : Rate
  mode  : Mode
  event : HostEvent
  deriving DecidableEq, Repr

/-- A log, oldest entry first, of a block watched from reset on for `ticks` ticks. -/
structure HostLog where
  entries : List Entry
  ticks   : Nat
  deriving DecidableEq, Repr

/-- The operation that the coming tick accepts, if any (R34). -/
def State.acceptedInstr (s : State) : Option Instr :=
  if s.pins.rst || s.busy || !s.inIdle then none
  else
    match s.presented with
    | none => none
    | some w =>
      match decode w with
      | .ok i => some i
      | .error _ => none

/-- The events of tick `n`, which takes `s` to `t`. -/
def State.tickEvents (s t : State) (n : Nat) : List Entry :=
  let made (e : HostEvent) : Entry := ⟨n, s.rate, s.mode, e⟩
  (if s.pins.rst then [made .reset]
    else
      match s.acceptedInstr with
      | some i => [made (.word i)]
      | none => []) ++
    if !s.alarm && t.alarm then [made .alarmRises] else []

/-- The entries of `k` ticks from `s` on, the first of them numbered `n`. -/
def entriesIn (P : Config.Build) : Nat → Nat → State → List Entry
  | 0, _, _ => []
  | k + 1, n, s =>
    match stepIn P s with
    | .next t => s.tickEvents t n ++ entriesIn P k (n + 1) t
    | .fault _ => []
    | .refused _ => []

/-- The log of the first `k` ticks from `s` on. -/
def hostLogIn (P : Config.Build) (k : Nat) (s : State) : HostLog := ⟨entriesIn P k 0 s, k⟩

/-- The frame that an entry puts on the line, if it does (R85: a frame refused for its CRC is not sent). -/
def Entry.frame (e : Entry) : Option Frame :=
  match e.event with
  | .word (.tx f) => if frameValid e.mode f then some f else none
  | _ => none

/-- The payload that an entry puts on the line. -/
def Entry.payload (e : Entry) : Option (BitVec 11) := e.frame.map payloadOf

/-- Is a payload that of a special command (R61)? -/
def isCommand (P : Config.Build) (p : BitVec 11) : Bool := decide (P.cmdMin ≤ p.toNat) && decide (p.toNat ≤ P.cmdMax)

/-- Is a payload a throttle that is not 0 (R61)? -/
def isThrottle (P : Config.Build) (p : BitVec 11) : Bool := decide (P.throttleMin ≤ p.toNat)

/-- A number of milliseconds in ticks. -/
def msTicks (P : Config.Build) (ms : Nat) : Nat := ms * (P.fClkHz / 1000)

/-- The tick in which the frame of an entry ends, its trailing period included (R88). -/
def Entry.frameEnd (P : Config.Build) (e : Entry) : Nat := e.tick + txTicks P e.rate

/-! ## What the rules leave to the host -/

/-- The points of the duties that the spec leaves open: parameters of the host (R63, U17), not values a model may assume. -/
structure HostRules where
  /-- The repeat count of a special command for which R63 says "not stated" and nothing more. -/
  otherRepeats : Nat → Nat
  /-- The quiet time in ticks of a special command for which R63 says "not stated". -/
  otherQuiet : Nat → Nat
  /-- Whether the "260ms spacing" of commands 1 to 5 lies between sendings of the same command only, and is no delay before
  other frames: 91_not_in_source.md N4 says that the source does not tell. -/
  spacingIsBetweenRepeats : Bool
  /-- Whether stop frames may be sent in a quiet time (the source does not say what "quiescent" bars). -/
  stopsInQuiet : Bool
  /-- How many ticks a frame may be early or late against the 1 kHz cadence (R145: "target 1 kHz"). -/
  slack : Nat
  /-- How many ticks after the tick that follows a TX the RX may come (R144: "or soon after"). -/
  rxLate : Nat

/-- What FB says of every special command: its "required-repeat-count (1 or 6)" (R142). -/
def HostRules.Legal (H : HostRules) : Prop := ∀ v, H.otherRepeats v = 1 ∨ H.otherRepeats v = 6

/-- The repeat count of a special command (R63, R142): 6 for 7..12, 20, 21; 1 for 1..5 ("so 1"); a parameter for the rest (assumption
log 21). -/
def commandRepeats (H : HostRules) (v : Nat) : Nat :=
  if (7 ≤ v ∧ v ≤ 12) ∨ v = 20 ∨ v = 21 then 6 else if 1 ≤ v ∧ v ≤ 5 then 1 else H.otherRepeats v

/-- The quiet time or spacing of a special command in ticks (R63, R142): 260 ms for 1..5, 12 ms for 6, a parameter for the
rest. What the 260 ms lie between, which 91_not_in_source.md N4 leaves open, is `spacingIsBetweenRepeats` (assumption
log 21). -/
def commandQuiet (P : Config.Build) (H : HostRules) (v : Nat) : Nat :=
  if 1 ≤ v ∧ v ≤ 5 then msTicks P 260 else if v = 6 then msTicks P 12 else H.otherQuiet v

/-- The last tick in which a frame that is due one cadence tick after tick `n` may come (R145). -/
def cadenceEnd (P : Config.Build) (H : HostRules) (n : Nat) : Nat := n + msTicks P 1 + H.slack

/-- Is tick `m` one cadence tick after tick `n` (R145)? -/
def onCadence (P : Config.Build) (H : HostRules) (n m : Nat) : Bool :=
  decide (n + msTicks P 1 ≤ m + H.slack) && decide (m ≤ cadenceEnd P H n)

/-! ## The duties -/

/-- How far the host is in R133's start-up. -/
inductive StartUp where
  | unclaimed
  | claimed
  | ready
  /-- After a `ResourceBusy`, which is fatal. -/
  | dead
  deriving DecidableEq, Repr

/-- R133 from a point of the start-up on: CLAIM, then a CONFIG that is accepted, before the first TX or RX. -/
def startUpFrom (P : Config.Build) : StartUp → List Entry → Bool
  | _, [] => true
  | p, e :: rest =>
    match e.event with
    | .reset => startUpFrom P .unclaimed rest
    | .word .claim => startUpFrom P (if p = .unclaimed then .claimed else .dead) rest
    | .word (.config r m _ _) => startUpFrom P (if p = .claimed ∧ configLegal P r m = true then .ready else p) rest
    | .word (.tx _) => decide (p = .ready) && startUpFrom P p rest
    | .word .rx => decide (p = .ready) && startUpFrom P p rest
    | _ => startUpFrom P p rest

/-- R133: the start-up after each reset. -/
def dutyStartUp (P : Config.Build) (log : HostLog) : Bool := startUpFrom P .unclaimed log.entries

/-- The stop frames of an arming run: the tick of the first and of the last. -/
structure StopRun where
  first : Nat
  last  : Nat
  deriving DecidableEq, Repr

/-- Has a run of stop frames lasted 300 ms at tick `n`, without a gap beyond the cadence (R134)? The 300 ms count from the
acceptance of the first stop frame to tick `n`, so 300 stop frames at 1 kHz and then a throttle will do
(95_test_vectors.md 1.2). -/
def StopRun.earned (P : Config.Build) (H : HostRules) (run : StopRun) (n : Nat) : Bool :=
  decide (n ≤ cadenceEnd P H run.last) && decide (run.first + msTicks P 300 ≤ n)

/-- R140 from a point on: `run` is the present run of stop frames, `armed` whether the host is `Armed`. A special command
breaks the run; reset, the rise of `alarm` (`Error`) and REINIT leave `Armed`. That an `estop` leaves it too cannot be seen
at the block, where it is a stop frame like that of a throttle of 0 (DESIGN CHOICE, assumption log 20). -/
def armedFrom (P : Config.Build) (H : HostRules) : Option StopRun → Bool → List Entry → Bool
  | _, _, [] => true
  | run, armed, e :: rest =>
    match e.event with
    | .reset => armedFrom P H none false rest
    | .alarmRises => armedFrom P H none false rest
    | .word .reinit => armedFrom P H none false rest
    | .word _ =>
      match e.payload with
      | none => armedFrom P H run armed rest
      | some p =>
        let armed' := armed || run.any fun x => x.earned P H e.tick
        if p = 0#11 then
          match run with
          | some x =>
            armedFrom P H (some ⟨if e.tick ≤ cadenceEnd P H x.last then x.first else e.tick, e.tick⟩) armed' rest
          | none => armedFrom P H (some ⟨e.tick, e.tick⟩) armed' rest
        else (armed' || !isThrottle P p) && armedFrom P H none armed' rest

/-- R134 and R140: a throttle that is not 0 is sent only when `Armed` (how `Armed` is reached and left: DESIGN CHOICE,
assumption log 20). -/
def dutyArmed (P : Config.Build) (H : HostRules) (log : HostLog) : Bool := armedFrom P H none false log.entries

/-- R141 from a point on: `stopped` is whether the last throttle sent was 0. -/
def commandsStoppedFrom (P : Config.Build) : Bool → List Entry → Bool
  | _, [] => true
  | stopped, e :: rest =>
    match e.payload with
    | none => commandsStoppedFrom P stopped rest
    | some p =>
      if isCommand P p then stopped && commandsStoppedFrom P stopped rest
      else commandsStoppedFrom P (decide (p = 0#11)) rest

/-- R141: a special command is sent only while the last throttle sent, if any, was 0 (assumption log 15). -/
def dutyCommandsStopped (P : Config.Build) (log : HostLog) : Bool := commandsStoppedFrom P true log.entries

/-- The sendings of a special command so far: its payload and how often it was sent in a row. -/
structure Repeating where
  payload : BitVec 11
  count   : Nat
  deriving DecidableEq, Repr

/-- Are repeats of the command still due (R142)? -/
def Repeating.due (H : HostRules) (x : Repeating) : Bool := decide (x.count % commandRepeats H x.payload.toNat ≠ 0)

/-- Is a frame with payload `p` a repeat that is due after `run`? -/
def isDueRepeat (H : HostRules) (run : Option Repeating) (p : BitVec 11) : Bool :=
  run.any fun x => x.due H && decide (p = x.payload)

/-- The sendings after a frame with payload `p`: one more of a command whose repeat was due, or the first of a command. -/
def countSending (P : Config.Build) (H : HostRules) (run : Option Repeating) (p : BitVec 11) : Option Repeating :=
  if isDueRepeat H run p then run.map fun x => ⟨p, x.count + 1⟩
  else if isCommand P p then some ⟨p, 1⟩
  else none

/-- An entry with what the repeat counts say of it. -/
structure Noted where
  entry : Entry
  /-- The entry is a repeat that was due. -/
  isRepeat : Bool
  /-- After it repeats are still due. -/
  more : Bool
  deriving DecidableEq, Repr

/-- The entries with their notes from a point on. Reset and the rise of `alarm` give the repeats up (assumption log 21). -/
def noteFrom (P : Config.Build) (H : HostRules) : Option Repeating → List Entry → List Noted
  | _, [] => []
  | run, e :: rest =>
    match e.event with
    | .reset => ⟨e, false, false⟩ :: noteFrom P H none rest
    | .alarmRises => ⟨e, false, false⟩ :: noteFrom P H none rest
    | .word _ =>
      match e.payload with
      | none => ⟨e, false, run.any fun x => x.due H⟩ :: noteFrom P H run rest
      | some p =>
        let run' := countSending P H run p
        ⟨e, isDueRepeat H run p, run'.any fun x => x.due H⟩ :: noteFrom P H run' rest

/-- The entries of a log with their notes. -/
def HostLog.noted (P : Config.Build) (H : HostRules) (log : HostLog) : List Noted := noteFrom P H none log.entries

/-- Has no repeat been missed by tick `n`, `prev` being the entry of the last frame before it? -/
def repeatsInTime (P : Config.Build) (H : HostRules) (prev : Option Noted) (n : Nat) : Bool :=
  prev.all fun x => !x.more || decide (n ≤ cadenceEnd P H x.entry.tick)

/-- R142, repeats, from a point on, `prev` being the entry of the frame before: while repeats are due the next frame is one of
them, one cadence tick later. Reset and the rise of `alarm` give up only what was not overdue before (assumption log 21). -/
def repeatsFrom (P : Config.Build) (H : HostRules) (ticks : Nat) : Option Noted → List Noted → Bool
  | prev, [] => repeatsInTime P H prev ticks
  | prev, y :: rest =>
    match y.entry.event with
    | .reset => repeatsInTime P H prev y.entry.tick && repeatsFrom P H ticks none rest
    | .alarmRises => repeatsInTime P H prev y.entry.tick && repeatsFrom P H ticks none rest
    | .word _ =>
      if y.entry.payload.isNone then repeatsFrom P H ticks prev rest
      else
        prev.all (fun x => !x.more || (y.isRepeat && onCadence P H x.entry.tick y.entry.tick)) &&
          repeatsFrom P H ticks (some y) rest

/-- R142, repeats: a special command is sent as often as its count says, in consecutive cadence ticks. -/
def dutyRepeats (P : Config.Build) (H : HostRules) (log : HostLog) : Bool :=
  repeatsFrom P H log.ticks none (log.noted P H)

/-- May a frame with payload `q` that is no due repeat be sent in the quiet time after the special command `p`? A stop frame if
the host's rules say so; another frame after 1..5 if their spacing is one between repeats. -/
def quietAllows (H : HostRules) (p q : BitVec 11) : Bool :=
  (H.stopsInQuiet && decide (q = 0#11)) ||
    (H.spacingIsBetweenRepeats && decide (1 ≤ p.toNat) && decide (p.toNat ≤ 5) && decide (q ≠ p))

/-- Does the later entry `y` keep the quiet time of the entry `x`? The time is "post-send": it counts from the end of the
frame of `x`, its trailing period included, to the tick that accepts the next; a repeat of the command that is due is no
breach (assumption log 21). -/
def quietBetween (P : Config.Build) (H : HostRules) (x y : Noted) : Bool :=
  match x.entry.payload, y.entry.payload with
  | some p, some q =>
    !isCommand P p || decide (x.entry.frameEnd P + commandQuiet P H p.toNat ≤ y.entry.tick) || quietAllows H p q ||
      (y.isRepeat && decide (q = p))
  | _, _ => true

/-- R142, quiet times, of a list of entries. Reset and the rise of `alarm` end a quiet time: an `estop` comes "regardless of
prior state" (R146; assumption log 21). -/
def quietFrom (P : Config.Build) (H : HostRules) : List Noted → Bool
  | [] => true
  | x :: rest =>
    (rest.takeWhile fun y => y.entry.event != .reset && y.entry.event != .alarmRises).all (quietBetween P H x) &&
      quietFrom P H rest

/-- R142, quiet times: after a special command no frame that its quiet time bars is sent before that is over. What it counts from
and what it bars is the model's reading (DESIGN CHOICE, assumption log 21). -/
def dutyQuiet (P : Config.Build) (H : HostRules) (log : HostLog) : Bool := quietFrom P H (log.noted P H)

/-- R143 from a point on: `made` are the payloads and flags that ENC_COMMAND was given. -/
def throttlePathFrom (P : Config.Build) : List (BitVec 16 × Bool) → List Entry → Bool
  | _, [] => true
  | made, e :: rest =>
    match e.event with
    | .word (.encThrottle value _) => !commandValue P value && throttlePathFrom P made rest
    | .word (.encCommand value t) => throttlePathFrom P ((value, t) :: made) rest
    | .word (.tx f) =>
      (!isCommand P (payloadOf f) || made.contains ((payloadOf f).setWidth 16, tflagOf f)) &&
        throttlePathFrom P made rest
    | _ => throttlePathFrom P made rest

/-- R143: values 1..47 go through ENC_COMMAND only. ENC_THROTTLE is never given one, and a frame with such a payload is handed
to TX only if ENC_COMMAND was given that value and flag before, so that no self-built frame carries one (DEDUCED,
assumption log 15). -/
def dutyThrottlePath (P : Config.Build) (log : HostLog) : Bool := throttlePathFrom P [] log.entries

/-- R144 from a point on: `prev` is the entry before. -/
def rxAtOnceFrom (P : Config.Build) (H : HostRules) : Option Entry → List Entry → Bool
  | _, [] => true
  | prev, e :: rest =>
    (match e.event, e.mode with
      | .word .rx, .bidirectional =>
        prev.any fun x => x.frame.isSome && decide (e.tick ≤ x.frameEnd P + 1 + H.rxLate)
      | _, _ => true) && rxAtOnceFrom P H (some e) rest

/-- R144: in Bidirectional mode an RX follows a TX at once, with no other word between, in the tick after the TX completes or
soon after. -/
def dutyRxAtOnce (P : Config.Build) (H : HostRules) (log : HostLog) : Bool := rxAtOnceFrom P H none log.entries

/-- The last tick in which the frame after that of the entry `x` is due: one cadence tick later, or, after a special command
whose quiet time bars stop frames too and of which no repeat is due, once that time is over. -/
def cadenceDue (P : Config.Build) (H : HostRules) (x : Noted) : Nat :=
  match x.entry.payload with
  | some p =>
    if isCommand P p && !quietAllows H p 0#11 && !x.more then
      max (cadenceEnd P H x.entry.tick) (x.entry.frameEnd P + commandQuiet P H p.toNat + H.slack)
    else cadenceEnd P H x.entry.tick
  | none => cadenceEnd P H x.entry.tick

/-- Has no frame been missed by tick `n`, `prev` being the entry of the last frame before it? -/
def cadenceInTime (P : Config.Build) (H : HostRules) (prev : Option Noted) (n : Nat) : Bool :=
  prev.all fun x => decide (n ≤ cadenceDue P H x)

/-- R145 from a point on: `prev` is the entry of the frame before. A reset excuses only what was not overdue before. -/
def cadenceFrom (P : Config.Build) (H : HostRules) (ticks : Nat) : Option Noted → List Noted → Bool
  | prev, [] => cadenceInTime P H prev ticks
  | prev, y :: rest =>
    if y.entry.event = .reset then cadenceInTime P H prev y.entry.tick && cadenceFrom P H ticks none rest
    else if y.entry.payload.isNone then cadenceFrom P H ticks prev rest
    else
      prev.all (fun x => decide (x.entry.tick + msTicks P 1 ≤ y.entry.tick + H.slack)) &&
        cadenceInTime P H prev y.entry.tick && cadenceFrom P H ticks (some y) rest

/-- R145: from the first frame after a reset on, one frame each cadence tick of 1 ms. -/
def dutyCadence (P : Config.Build) (H : HostRules) (log : HostLog) : Bool :=
  cadenceFrom P H log.ticks none (log.noted P H)

/-- Where the host is in its reaction to `alarm` (R146). -/
inductive AlarmState where
  | calm
  /-- `alarm` rose in this tick, and no frame was sent since; whether REINIT was issued after its last rise. -/
  | mustStop (since : Nat) (reinit : Bool)
  /-- A stop frame was sent, and REINIT is still to come. -/
  | stopped
  deriving DecidableEq, Repr

/-- Is a stop frame that is still to come not overdue at tick `n` (R146: "on the next tick")? -/
def AlarmState.inTime (P : Config.Build) (H : HostRules) (a : AlarmState) (n : Nat) : Bool :=
  match a with
  | .mustStop since _ => decide (n ≤ cadenceEnd P H since)
  | _ => true

/-- After another rise of `alarm` in tick `n`: a stop frame still to come is due as before. -/
def AlarmState.rise (a : AlarmState) (n : Nat) : AlarmState :=
  match a with
  | .mustStop since _ => .mustStop since false
  | _ => .mustStop n false

/-- R146 from a point on. A reset, which clears `alarm`, excuses only a stop frame that was not overdue before. -/
def alarmFrom (P : Config.Build) (H : HostRules) (ticks : Nat) : AlarmState → List Entry → Bool
  | a, [] => a.inTime P H ticks
  | a, e :: rest =>
    match e.event with
    | .reset => a.inTime P H e.tick && alarmFrom P H ticks .calm rest
    | .alarmRises => alarmFrom P H ticks (a.rise e.tick) rest
    | .word i =>
      match a, e.payload with
      | .calm, _ => alarmFrom P H ticks .calm rest
      | .mustStop _ reinit, some p =>
        decide (p = 0#11) && a.inTime P H e.tick &&
          alarmFrom P H ticks (if reinit then .calm else .stopped) rest
      | .mustStop n reinit, none => alarmFrom P H ticks (.mustStop n (reinit || decide (i = .reinit))) rest
      | .stopped, some p => !isThrottle P p && alarmFrom P H ticks .stopped rest
      | .stopped, none => alarmFrom P H ticks (if i = .reinit then .calm else .stopped) rest

/-- R146: when `alarm` rises the next frame is a stop frame, within one cadence tick ("on the next tick"), whether or not REINIT
comes before it, and no throttle but 0 is sent until REINIT. -/
def dutyAlarm (P : Config.Build) (H : HostRules) (log : HostLog) : Bool := alarmFrom P H log.ticks .calm log.entries

/-- All the duties of the host (R139). R147, one caller, is that the block has the one list `host`. -/
def hostDuties (P : Config.Build) (H : HostRules) (log : HostLog) : Bool :=
  dutyStartUp P log && dutyArmed P H log && dutyCommandsStopped P log && dutyRepeats P H log && dutyQuiet P H log &&
    dutyThrottlePath P log && dutyRxAtOnce P H log && dutyCadence P H log && dutyAlarm P H log

end Sys2Proof.Machine
end

