-- ==== Sys2Proof/Tests/Slice0.lean ====
section
/-! SUPPORT. Tests with expected results from spec/95_test_vectors.md and the layouts of 30_encoding.md, the smoke test of
WellFormed, and a witness for the hypotheses of every statement. -/

namespace Sys2Proof.Tests

open Sys2Proof.Machine

/-! ## Helpers -/

/-- STATUS and RESULT of a next state. -/
def seen (o : Host.Outcome State Fault Refusal) : Option (Word × Word) :=
  match o with
  | .next t => some (t.statusWord, t.result)
  | .fault _ => none
  | .refused _ => none

/-- The next state's value of a field, if there is a next state. -/
def field {α : Type} (f : State → α) (o : Host.Outcome State Fault Refusal) : Option α :=
  match o with
  | .next t => some (f t)
  | .fault _ => none
  | .refused _ => none

/-- CFG = 0x00000306: 600k, Bidirectional, threshold 3. -/
def bidi : State := { State.reset with rate := .k600, mode := .bidirectional, thresh := 3#8, lineOut := true }

/-- EDT support advertised. -/
def adv : State := { State.reset with edtAdv := true }

/-- One command word at the port. -/
def port (s : State) (w : Word) : State := { s with host := [.submit w] }

/-- A transmission of frame 0 in its first tick. -/
def sending : State := { State.reset with phase := .tx, busy := true, bitIdx := 15#4 }

/-- A block that waits for the start edge. -/
def listening : State := { bidi with phase := .listen, busy := true, lineOe := false }

/-- A capture at 1200k that has taken one sample. -/
def capturing : State :=
  { bidi with rate := .k1200, phase := .capture, busy := true, lineOe := false, cnt := 1, samples := [false] }

/-- A legal build with a value for every parameter. -/
def small : Config.Build := { Config.build with tTrail := 48, tRxTimeout := 1000, edtCommands := fun v => v == 13 }

/-- A build with another clock, table, discriminator and switching delay. -/
def other : Config.Build :=
  { Config.build with fClkHz := 96000000, tSwitch := 7, edtBit := 12, gcrTable := fun n => n.setWidth 5 }

theorem other_legal : other.Legal :=
  { build_legal with
    fClkHz := by decide
    tSwitch := by decide
    edtBit := by decide
    gcrTable := by decide }

/-- A host whose open points are the least demanding. -/
def rules : HostRules :=
  { otherRepeats := fun _ => 1, otherQuiet := fun _ => 0, spacingIsBetweenRepeats := false, stopsInQuiet := true,
    slack := 480, rxLate := 0 }

/-- A log at 600k Bidirectional. -/
def logOf (ticks : Nat) (events : List (Nat × HostEvent)) : HostLog :=
  ⟨events.map fun e => ⟨e.1, .k600, .bidirectional, e.2⟩, ticks⟩

/-- The TX of a payload, flag 0. -/
def send (p : BitVec 11) : HostEvent := .word (.tx (mkFrame p false .bidirectional))

/-- Runs of levels as samples. -/
def levels (runs : List (Level × Nat)) : List Level := runs.flatMap fun g => List.replicate g.2 g.1

/-! ## WellFormed: an ill-formed word for each check (R43, R51) -/

theorem test_wf_opcode_0 : wordWellFormed 0x00000000#32 = false := by decide
theorem test_wf_opcode_14 : wordWellFormed 0xE0000000#32 = false := by decide
theorem test_wf_opcode_15 : wordWellFormed 0xF1234567#32 = false := by decide
theorem test_wf_reserved_C : wordWellFormed 0x10002000#32 = false := by decide
theorem test_wf_reserved_V : wordWellFormed 0x20020000#32 = false := by decide
theorem test_wf_reserved_W : wordWellFormed 0x80010000#32 = false := by decide
theorem test_wf_reserved_G : wordWellFormed 0x50100000#32 = false := by decide
theorem test_wf_reserved_N : wordWellFormed 0x90000001#32 = false := by decide
theorem test_wf_reserved_K : wordWellFormed 0xB0000010#32 = false := by decide
theorem test_wf_accepts : wordWellFormed 0xB000FF0F#32 = true := by decide

/-! ## Decoding: a word of each operation, its bits written out from R44 to R50 -/

theorem test_decode_crc4 : decode 0b0001_000000000000000_1_001111101000#32 = .ok (.crc4 0x3E8#12 true) := rfl
theorem test_decode_encThrottle :
    decode 0b0010_00000000000_0_0000000111110100#32 = .ok (.encThrottle 500#16 false) := rfl
theorem test_decode_encCommand :
    decode 0b0011_00000000000_1_0000000000000001#32 = .ok (.encCommand 1#16 true) := rfl
theorem test_decode_decFrame : decode 0b0100_000000000000_0111110100001010#32 = .ok (.decFrame 0x7D0A#16) := rfl
theorem test_decode_gcrDecode : decode 0b0101_00000000_10110110110100100100#32 = .ok (.gcrDecode 0xB6D24#20) := rfl
theorem test_decode_gcrEncode : decode 0b0110_000000000000_0100011001000110#32 = .ok (.gcrEncode 0x4646#16) := rfl
theorem test_decode_decTelemetry :
    decode 0b0111_000000000000_0100011001000110#32 = .ok (.decTelemetry 0x4646#16) := rfl
theorem test_decode_tx : decode 0b1000_000000000000_0011111010001010#32 = .ok (.tx 0x3E8A#16) := rfl
theorem test_decode_rx : decode 0b1001_0000000000000000000000000000#32 = .ok .rx := rfl
theorem test_decode_classify : decode 0b1010_000000000000_0000000000111001#32 = .ok (.classify 57#16) := rfl
theorem test_decode_config :
    decode 0b1011_000000000000_00000011_0000_0_1_10#32 = .ok (.config .k600 .bidirectional false 3#8) := rfl
theorem test_decode_claim : decode 0b1100_0000000000000000000000000000#32 = .ok .claim := rfl
theorem test_decode_reinit : decode 0b1101_0000000000000000000000000000#32 = .ok .reinit := rfl
theorem test_decode_refuses_by_name :
    decode 0xE0000000#32 = .error .illegalOpcode ∧ decode 0xD8000000#32 = .error .reservedBitSet := ⟨rfl, rfl⟩

/-- A word numbered as the table numbers it, fetched as the first word after reset. -/
theorem test_table_word :
    decodeTableWord 32 0xC0000000 = some .claim ∧
    seen (step (State.reset.withFetchWord 32 0xC0000000)) = some (0x202#32, 0#32) := by decide

/-! ## The operations: spec/95_test_vectors.md sections 2 to 8 -/

theorem test_crc4_inverted : seen (step (port .reset 0x100013E8#32)) = some (0x2#32, 0xA#32) := by decide
theorem test_crc4_three_nibbles : seen (step (port .reset 0x10000ABC#32)) = some (0x2#32, 0xD#32) := by decide
theorem test_encThrottle_bidirectional : seen (step (port bidi 0x200101F4#32)) = some (0x2#32, 0x3E9B#32) := by decide
theorem test_encThrottle_47 : seen (step (port .reset 0x2000002F#32)) = some (0x16#32, 0#32) := by decide
theorem test_encCommand_47 : seen (step (port adv 0x3001002F#32)) = some (0x2#32, 0x05FA#32) := by decide
theorem test_encCommand_48 : seen (step (port adv 0x30000030#32)) = some (0x16#32, 0#32) := by decide
theorem test_decFrame_class : seen (step (port bidi 0x400005E4#32)) = some (0x2#32, 0x102F#32) := by decide
theorem test_decFrame_other_mode : seen (step (port bidi 0x40007D0A#32)) = some (0x26#32, 0#32) := by decide
theorem test_gcrDecode_1234 : seen (step (port .reset 0x500973A9#32)) = some (0x2#32, 0x1234#32) := by decide
theorem test_gcrDecode_one_bad_quintet : seen (step (port .reset 0x50036D24#32)) = some (0x36#32, 0#32) := by decide
theorem test_gcrEncode_CDEF : seen (step (port .reset 0x6000CDEF#32)) = some (0x2#32, 0xA268A#32) := by decide
theorem test_gcrEncode_2AB3 : seen (step (port .reset 0x60002AB3#32)) = some (0x2#32, 0xE31A2#32) := by decide
theorem test_decTelemetry_period : seen (step (port bidi 0x70004646#32)) = some (0x2#32, 0x00010190#32) := by decide
theorem test_decTelemetry_edt : seen (step (port bidi 0x7000A25D#32)) = some (0x2#32, 0x00020A25#32) := by decide
theorem test_tx_accepted : seen (step (port bidi 0x80003E8A#32)) = some (0x401#32, 0#32) := by decide
theorem test_tx_refused : seen (step (port bidi 0x80003E85#32)) = some (0x26#32, 0#32) := by decide
theorem test_rx_standard : seen (step (port .reset 0x90000000#32)) = some (0x2#32, 0#32) := by decide
theorem test_rx_bidirectional :
    field (fun t => (t.statusWord, t.driven)) (step (port bidi 0x90000000#32)) = some (0xC01#32, none) := by decide
theorem test_classify_edge : seen (step (port bidi 0xA0000036#32)) = some (0x2#32, 1#32) := by decide
theorem test_classify_outside : seen (step (port bidi 0xA0000035#32)) = some (0x56#32, 0#32) := by decide
theorem test_config_idle_level :
    field (fun t => (t.cfgWord, t.driven)) (step (port .reset 0xB000FF0F#32)) = some (0xFF0F#32, some true) := by decide
theorem test_config_all_or_nothing :
    field (fun t => (t.statusWord, t.cfgWord, t.driven)) (step (port bidi 0xB0000A0C#32)) =
      some (0x96#32, 0x306#32, some true) := by decide
theorem test_claim : seen (step (port .reset 0xC0000000#32)) = some (0x202#32, 0#32) := by decide
theorem test_claim_again :
    seen (step (port { State.reset with owned := true } 0xC0000000#32)) = some (0x266#32, 0#32) := by decide
theorem test_reinit :
    field (fun t => (t.statusWord, t.crcFailWord, t.discardWord))
      (step (port { bidi with fault := true, crcFail := 3#8, discard := 7#16, owned := true } 0xD0000000#32)) =
      some (0x202#32, 0#32, 0#32) := by decide
theorem test_illegal_word : seen (step (port .reset 0xB0000010#32)) = some (0xA6#32, 0#32) := by decide

/-! ## Single ticks: sections 5 and 7.1 -/

/-- 150k, bit 0 of a frame of zeros: high in the first 120 ticks, low in tick 120. -/
theorem test_tx_tick_levels :
    field State.driven (step sending) = some (some true) ∧
    field State.driven (step { sending with cnt := 119 }) = some (some true) ∧
    field State.driven (step { sending with cnt := 120 }) = some (some false) := by decide

/-- 600k Bidirectional, a 1 bit: electrically low for 60 ticks. -/
theorem test_tx_inverted_levels :
    let s := { sending with rate := .k600, mode := .bidirectional, shreg := 0xFFF0#16 }
    field State.driven (step { s with cnt := 59 }) = some (some false) ∧
    field State.driven (step { s with cnt := 60 }) = some (some true) := by decide

theorem test_tx_next_bit :
    field (fun t => (t.bitIdx, t.cnt)) (step { sending with cnt := 319 }) = some (14#4, 0) := by decide

theorem test_switch_ends :
    field (fun t => (t.phase, t.cnt)) (step { listening with phase := .switch, cnt := 1439 }) = some (.listen, 0) := by
  decide

theorem test_start_edge :
    field (fun t => (t.phase, t.cnt, t.samples)) (step { listening with env := [⟨false, false, 0#3⟩] }) =
      some (.capture, 1, [false]) := by decide

/-- Vector 5.3 at 1200k, Edt(0, 0): the cells of its runs, and the frame they are. -/
theorem test_rx_vector_edt :
    outcomeOf Config.build (answerOf Config.build (levels [(false, 32), (true, 32), (false, 96), (true, 32), (false, 32), (true, 96), (false, 32),
      (true, 32), (false, 96), (true, 32), (false, 32), (true, 96), (false, 32), (true, 68)]) .k1200) =
      .valid (.edt 0#4 0#8) := by decide +kernel

/-- Vectors 5.8, 5.10 and 5.11 at 600k. -/
theorem test_rx_vectors_bad :
    outcomeOf Config.build (answerOf Config.build (levels [(false, 96), (true, 1383)]) .k600) = .framingError ∧
    outcomeOf Config.build (answerOf Config.build (levels [(false, 64), (true, 10), (false, 64), (true, 1341)]) .k600) = .framingError ∧
    outcomeOf Config.build (answerOf Config.build (levels [(false, 64), (true, 1415)]) .k600) = .gcrFraming := by decide +kernel

/-- The counter rules at the end of section 5. -/
theorem test_rx_counters :
    let s := { bidi with crcFail := 2#8, discard := 9#16 }
    ((s.finishRx .crcMismatch).statusWord, (s.finishRx .crcMismatch).crcFail, (s.finishRx .crcMismatch).discard) =
      (0x126#32, 3#8, 10#16) ∧
    ((s.finishRx .timeout).statusWord, (s.finishRx .timeout).crcFail, (s.finishRx .timeout).discard) =
      (0x46#32, 2#8, 9#16) := by decide

theorem test_rx_saturation :
    let s := { bidi with crcFail := 255#8, discard := 65535#16 }
    ((s.finishRx .crcMismatch).crcFail, (s.finishRx .crcMismatch).discard) = (255#8, 65535#16) := by decide

theorem test_reset_pin :
    field (fun t => (t.statusWord, t.driven)) (step { sending with env := [⟨true, true, 0#3⟩], lineOut := true }) =
      some (0#32, some false) := by decide

/-- R103's fault is not raised by lowering the threshold (U22). -/
theorem test_config_does_not_fault :
    field (fun t => t.fault) (step (port { bidi with crcFail := 2#8 } 0xB0000106#32)) = some false := by decide

/-- R148: at 600k the 1280 ticks of a frame, then the trailing period, then completion; bit 0 in its last tick. -/
theorem test_trail :
    let s := { sending with rate := .k600, mode := .bidirectional, shreg := 0x3E8A#16, bitIdx := 0#4, cnt := 79 }
    field (fun t => (t.phase, t.busy)) (stepIn small s) = some (.trail, true) ∧
    field (fun t => (t.statusWord, t.result)) (stepIn small { s with phase := .trail, cnt := 47 }) =
      some (0x2#32, 0x3E8A#32) := by decide

/-- 95_test_vectors.md P4: with EDT_COMMANDS = 13 and without EDT support the command 13 is refused. -/
theorem test_edt_command :
    seen (stepIn small (port .reset 0x3000000D#32)) = some (0x16#32, 0#32) ∧
    seen (stepIn small (port adv 0x3000000D#32)) = some (0x2#32, 0x01AB#32) := by decide

/-! ## Host duties (R133, R134, R139 to R146) -/

/-- R133: the log of the first words of program P1, and one without CONFIG. -/
theorem test_duty_start_up :
    dutyStartUp small (hostLogIn small 3
      { State.reset with host := [.submit 0xC0000000#32, .submit 0xB0000306#32, .submit 0x80003E8A#32] }) = true ∧
    dutyStartUp small (hostLogIn small 3
      { State.reset with host := [.submit 0xC0000000#32, .submit 0x80007D0A#32] }) = false := by decide

/-- R140: no throttle without arming; after a run of stop frames over 300 ms (here two, the cadence being loosened to 300 ms)
one may be sent; after an alarm and REINIT not. -/
theorem test_duty_armed :
    let loose := { rules with slack := 14400000 }
    dutyArmed small loose (logOf 0 [(0, send 48#11)]) = false ∧
    dutyArmed small loose (logOf 0 [(0, send 0#11), (14399999, send 48#11)]) = false ∧
    dutyArmed small loose (logOf 0 [(0, send 0#11), (14400000, send 48#11), (14400001, send 49#11)]) = true ∧
    dutyArmed small loose (logOf 0 [(0, send 0#11), (14400000, send 0#11), (14400001, .alarmRises),
      (14400002, .word .reinit), (14400003, send 48#11)]) = false := by decide

/-- R142: six sendings of command 7 in consecutive cadence ticks, and six within one. -/
theorem test_duty_repeats :
    dutyRepeats small rules (logOf 999999 ((List.range 6).map fun k => (48000 * k, send 7#11))) = true ∧
    dutyRepeats small rules (logOf 999999 ((List.range 6).map fun k => (4000 * k, send 7#11))) = false ∧
    dutyRepeats small rules (logOf 999999 ((List.range 5).map fun k => (48000 * k, send 7#11))) = false := by decide

/-- R142: 12 ms after the end of the frame of command 6, which is 1328 ticks after its acceptance. -/
theorem test_duty_quiet :
    dutyQuiet small rules (logOf 0 [(0, send 6#11), (577328, send 48#11)]) = true ∧
    dutyQuiet small rules (logOf 0 [(0, send 6#11), (577327, send 48#11)]) = false := by decide

/-- R142: a quiet time of 100000 ticks after command 7 does not bar its six sendings, and bars a seventh. -/
theorem test_duty_quiet_repeats :
    let H := { rules with otherQuiet := fun _ => 100000 }
    dutyQuiet small H (logOf 0 ((List.range 6).map fun k => (48000 * k, send 7#11))) = true ∧
    dutyQuiet small H (logOf 0 ((List.range 7).map fun k => (48000 * k, send 7#11))) = false := by decide

/-- R145: after command 1 the host may be silent for its 260 ms only if they bar stop frames too. -/
theorem test_duty_cadence :
    let H := { rules with stopsInQuiet := false }
    let log := logOf 12480000 [(0, send 1#11), (12481328, send 0#11)]
    dutyCadence small H log = true ∧ dutyCadence small { H with spacingIsBetweenRepeats := true } log = false ∧
    dutyCadence small rules log = false := by decide

/-- R142, R145, R146: a reset long after the deadline excuses nothing, one before it does; nor does a second alarm put the stop
frame of the first off. -/
theorem test_duty_deadlines :
    dutyRepeats small rules (logOf 999999 [(0, send 7#11), (99999, .reset)]) = false ∧
    dutyRepeats small rules (logOf 999999 [(0, send 7#11), (9, .reset)]) = true ∧
    dutyCadence small rules (logOf 999999 [(0, send 0#11), (99999, .reset)]) = false ∧
    dutyCadence small rules (logOf 999999 [(0, send 0#11), (9, .reset)]) = true ∧
    dutyAlarm small rules (logOf 999999 [(0, .alarmRises), (99999, .reset)]) = false ∧
    dutyAlarm small rules (logOf 999999 [(0, .alarmRises), (9, .reset)]) = true ∧
    dutyAlarm small rules (logOf 999999 [(0, .alarmRises), (5, .word .reinit), (40000, .alarmRises),
      (60000, send 0#11)]) = false := by decide

/-- R143: a frame with payload 7 built by the host itself. -/
theorem test_duty_throttle_path :
    dutyThrottlePath small (logOf 0 [(0, .word (.encCommand 7#16 false)), (1, send 7#11)]) = true ∧
    dutyThrottlePath small (logOf 0 [(1, send 7#11)]) = false := by decide

/-- R144: RX in the tick after the 1328 ticks of TX, one tick later than that, and without a TX. -/
theorem test_duty_rx :
    dutyRxAtOnce small rules (logOf 0 [(0, send 0#11), (1329, .word .rx)]) = true ∧
    dutyRxAtOnce small rules (logOf 0 [(0, send 0#11), (1330, .word .rx)]) = false ∧
    dutyRxAtOnce small rules (logOf 0 [(0, .word .rx), (1, .word .claim)]) = false := by decide

/-- R146: a stop frame within a cadence tick of the alarm, no throttle until REINIT, and no stop at all. -/
theorem test_duty_alarm :
    dutyAlarm small rules (logOf 999999 [(0, .alarmRises), (9, send 0#11), (48009, .word .reinit), (48010, send 48#11)]) =
      true ∧
    dutyAlarm small rules (logOf 999999 [(0, .alarmRises), (9, send 0#11), (48009, send 48#11)]) = false ∧
    dutyAlarm small rules (logOf 999999 [(0, .alarmRises), (5, .word .reinit), (9, send 0#11), (48009, send 48#11)]) =
      true ∧
    dutyAlarm small rules (logOf 999999 [(0, .alarmRises)]) = false := by decide

/-! ## Witnesses: states and operands that meet the hypotheses of each statement -/

theorem ready_reset : State.reset.Ready := ⟨rfl, rfl, rfl⟩

theorem accepts_port {s : State} {w : Word} {i : Instr} (h : s.Ready) (hd : decode w = .ok i) : (port s w).Accepts i :=
  ⟨⟨h.rst, h.busy, h.phase⟩, w, rfl, hd⟩

theorem ready_bidi : bidi.Ready := ⟨rfl, rfl, rfl⟩

theorem inv_reset : State.reset.Inv := by constructor <;> simp [State.reset, Phase.released, Mode.bit]

theorem wit_ResetValues : ∃ s : State, s.pins.rst = true ∧ s.phase = .tx :=
  ⟨{ sending with env := [⟨true, true, 0#3⟩] }, rfl, rfl⟩

theorem wit_StepKeepsInvariants : ∃ s t : State, s.Inv ∧ step s = .next t := ⟨State.reset, _, inv_reset, rfl⟩

theorem driverInv_sending (P : Config.Build) (hP : P.Legal) : sending.DriverInv P := by
  constructor <;> simp [sending, State.reset, Phase.released]
  · exact tbit_pos hP _
  · decide

theorem wit_StepKeepsDriverInvariants : ∃ s t : State, s.DriverInv Config.build ∧ step s = .next t :=
  ⟨sending, _, driverInv_sending _ build_legal, rfl⟩

/-- The premise of the statements about every build: the host's build, and another. -/
theorem wit_Legal : Config.build.Legal ∧ other.Legal ∧ other.tSwitch ≠ Config.build.tSwitch :=
  ⟨build_legal, other_legal, by decide⟩

theorem wit_StepKeepsDriverInvariants_build : ∃ (P : Config.Build) (s t : State),
    P.Legal ∧ s.Inv ∧ s.DriverInv P ∧ stepIn P s = .next t :=
  ⟨other, State.reset, _, other_legal, inv_reset, by constructor <;> simp [State.reset, Phase.released], rfl⟩

theorem wit_CoherentStateNeverStops : ∃ s : State, s.busy = true ∧ (s.busy = true ↔ s.phase ≠ .idle) :=
  ⟨sending, rfl, by simp [sending]⟩

theorem inv_sending : sending.Inv := by constructor <;> simp [sending, State.reset, Phase.released]

theorem wit_BusyEndsWithinBound : ∃ (P : Config.Build) (s : State), P.Legal ∧ s.busy = true ∧ s.Inv ∧ s.DriverInv P :=
  ⟨other, sending, other_legal, rfl, inv_sending, driverInv_sending other other_legal⟩

theorem wit_StepRunsDecodedInstruction : ∃ (s : State) (i : Instr), s.Accepts i :=
  ⟨port .reset 0xC0000000#32, .claim, accepts_port ready_reset rfl⟩

theorem wit_WordHeldWhileBusy :
    ∃ (s t : State) (w : Word) (h : List HostAct), s.host = .submit w :: h ∧ s.busy = true ∧ step s = .next t :=
  ⟨port sending 0#32, _, 0#32, [], rfl, rfl, rfl⟩

theorem wit_IllegalWordOnlyRaisesIllegalOp :
    ∃ (s : State) (w : Word), s.Ready ∧ s.Inv ∧ s.presented = some w ∧ wordWellFormed w = false :=
  ⟨port .reset 0xB0000010#32, 0xB0000010#32, ⟨rfl, rfl, rfl⟩, ⟨inv_reset.1, inv_reset.2, inv_reset.3, inv_reset.4,
    inv_reset.5, inv_reset.6, inv_reset.7, inv_reset.8⟩, rfl, by decide⟩

theorem wit_IdleTickChangesNothing : ∃ s : State, s.Ready ∧ s.Inv ∧ s.presented = none :=
  ⟨State.reset, ready_reset, inv_reset, rfl⟩

theorem wit_DecodeEncodeAgree : ∃ i : Instr, i.wellFormed = true := ⟨.rx, rfl⟩

theorem wit_EncodeDecodeAgree : ∃ (w : Word) (i : Instr), decode w = .ok i := ⟨0x90000000#32, .rx, rfl⟩

theorem wit_DecoderMatchesOpcodeTable : ∃ w : Word, ∃ r ∈ opRows, ∃ r' ∈ opRows,
    w &&& r.mask = r.pattern ∧ w &&& r'.mask = r'.pattern :=
  ⟨0xB000FF0F#32, ⟨"CONFIG", 0xB0000000#32, 0xFFFF00F0#32⟩, by simp [opRows],
    ⟨"CONFIG", 0xB0000000#32, 0xFFFF00F0#32⟩, by simp [opRows], by decide, by decide⟩

theorem wit_Crc4Result : (3 < 4 ∧ 4 ≤ 4) := by decide

theorem wit_CrcLaws :
    (frameValid .standard 0x7D0A#16 = true ∧ frameValid .bidirectional 0x3E8A#16 = true) ∧
    ((0 < 4 ∧ 4 < 16 ∧ (4 - 0) % 4 = 0) ∧ (3 < 15 ∧ 15 < 16 ∧ (15 - 3) % 4 = 0)) := by decide

theorem wit_EncThrottleResult :
    (∀ v ∈ [0#16, 48#16, 2047#16], v.toNat = 0 ∨ (48 ≤ v.toNat ∧ v.toNat ≤ 2047)) ∧
    (∀ v ∈ [1#16, 47#16, 2048#16, 65535#16], ¬(v.toNat = 0 ∨ (48 ≤ v.toNat ∧ v.toNat ≤ 2047))) := by simp

theorem wit_EncCommandResult :
    (∀ v ∈ [1#16, 47#16], (1 ≤ v.toNat ∧ v.toNat ≤ 47) ∧
      ¬(Config.isEdtCommand v.toNat = true ∧ adv.edtAdv = false)) ∧
    (∀ v ∈ [0#16, 48#16, 65535#16], ¬((1 ≤ v.toNat ∧ v.toNat ≤ 47) ∧
      ¬(Config.isEdtCommand v.toNat = true ∧ adv.edtAdv = false))) := by
  simp [adv]

theorem wit_DecFrameResult :
    crcRight 0x7D0A#16 State.reset.mode ∧ crcRight 0x000F#16 bidi.mode ∧ ¬crcRight 0x7D0B#16 State.reset.mode := by
  simp only [crcRight]
  decide

theorem wit_EncodeThenDecodeRoundTrip_throttle :
    ∃ value : BitVec 16, 48 ≤ value.toNat ∧ value.toNat ≤ 2047 := ⟨2047#16, by decide⟩

theorem wit_EncodeThenDecodeRoundTrip_command :
    (∃ (value : BitVec 16) (s : State), 1 ≤ value.toNat ∧ value.toNat ≤ 47 ∧
      ¬(Config.isEdtCommand value.toNat = true ∧ s.edtAdv = false)) ∧
    ∀ value : BitVec 16, 1 ≤ value.toNat → value.toNat ≤ 47 → Config.isEdtCommand value.toNat = false →
      ¬(Config.isEdtCommand value.toNat = true ∧ State.reset.edtAdv = false) :=
  ⟨⟨47#16, adv, by decide, by decide, by simp [adv]⟩, fun _ _ _ h => by simp [h]⟩

theorem wit_FlippedFrameIsRefused : ∃ (f : Frame) (s : State), 15 < 16 ∧ crcRight f s.mode :=
  ⟨0x7D0A#16, .reset, by decide, wit_DecFrameResult.1⟩

theorem wit_ModeChangeInvalidatesFrame : ∃ s u v : State,
    exec (.encThrottle 500#16 false) s = .next u ∧ u.err = false ∧ Mode.bidirectional ≠ s.mode ∧
    exec (.config .k600 .bidirectional false 3#8) u = .next v ∧ v.err = false :=
  ⟨.reset, _, _, rfl, rfl, by decide, rfl, rfl⟩

theorem wit_ModeChangeInvalidatesFrame_command : ∃ s u v : State,
    exec (.encCommand 1#16 true) s = .next u ∧ u.err = false ∧ Mode.standard ≠ s.mode ∧
    exec (.config .k150 .standard false 0#8) u = .next v ∧ v.err = false :=
  ⟨{ bidi with edtAdv := true }, _, _, rfl, rfl, by decide, rfl, rfl⟩

theorem wit_GcrDecodesExactlyTheCodewords : ∃ T : BitVec 4 → BitVec 5, ∀ a b, T a = T b → a = b :=
  ⟨Config.gcrTable, gcrTable_injective⟩

theorem wit_GcrDecodeResult_frame : ∀ k, k < 4 →
    Config.gcrTable ((0x4646#16).extractLsb' (4 * k) 4) =
      ((0xB6D24#20) ^^^ ((0xB6D24#20) >>> 1)).extractLsb' (5 * k) 5 := by decide

theorem wit_GcrDecodeResult_framing :
    ∃ k, k < 4 ∧ ∀ n, Config.gcrTable n ≠ ((0x36D24#20) ^^^ ((0x36D24#20) >>> 1)).extractLsb' (5 * k) 5 :=
  ⟨3, by decide, by decide⟩

theorem wit_DecTelemetryResult :
    ¬crcRight 0x4647#16 .standard ∧ (crcRight 0x4646#16 .standard ∧ (0x4646#16).getLsbD 14 = true) ∧
    (crcRight 0xA25D#16 .standard ∧ (0xA25D#16).getLsbD 14 = false) := by
  simp only [crcRight]
  decide

theorem wit_PeriodNeverOverflows : (0xFFFF#16).getLsbD 14 = true := by decide

theorem wit_TxAcceptance : crcRight 0x0000#16 State.reset.mode ∧ ¬crcRight 0x000F#16 State.reset.mode := by
  simp only [crcRight]
  decide

theorem wit_TxPutsFrameOnTheWire (P : Config.Build) (hP : P.Legal) : ∃ (s : State) (f : Frame), s.Accepts (.tx f) ∧
    s.NoReset ∧ frameValid s.mode f = true ∧ 0 < txTicks P s.rate ∧ txTicks P s.rate - 1 < txTicks P s.rate := by
  have h : 0 < txTicks P bidi.rate := Nat.add_pos_left (Nat.mul_pos (by decide) (tbit_pos hP _)) _
  refine ⟨port bidi 0x80003E8A#32, 0x3E8A#16, accepts_port ready_bidi rfl, ?_, by decide, h, Nat.sub_lt h (by decide)⟩
  simp [State.NoReset, port, bidi, State.reset]

theorem wit_TransmitTicksFrame_busy : ∃ s t : State, s.pins.rst = false ∧ (s.phase = .tx ∨ s.phase = .trail) ∧
    step s = .next t ∧ t.busy = true := ⟨sending, _, rfl, .inl rfl, rfl, rfl⟩

/-- The last tick of a transmission, whatever T_TRAIL_TICKS is. -/
theorem wit_TransmitTicksFrame_done : ∃ s t : State, s.pins.rst = false ∧ (s.phase = .tx ∨ s.phase = .trail) ∧
    step s = .next t ∧ t.busy = false := by
  by_cases h : Config.tTrail = 0
  · let s : State := { sending with bitIdx := 0#4, cnt := 319 }
    refine ⟨s, _, rfl, .inl rfl, (step_eq_stepIn s).trans (stepIn_tx rfl rfl rfl), ?_⟩
    rcases State.tickTx_cases Config.build s.advance with ⟨hc, _⟩ | ⟨_, hb, _⟩ | ⟨_, _, ht, _⟩ | ⟨_, _, _, he⟩
    · exact absurd (by decide) hc
    · exact absurd rfl hb
    · exact absurd h ht
    · rw [he]; rfl
  · let s : State := { sending with phase := .trail, cnt := Config.tTrail - 1 }
    refine ⟨s, _, rfl, .inr rfl, (step_eq_stepIn s).trans (stepIn_trail rfl rfl rfl), ?_⟩
    rcases State.tickTrail_cases Config.build s.advance with ⟨hc, _⟩ | ⟨_, he⟩
    · exact absurd (show Config.tTrail - 1 + 1 = Config.tTrail by omega) hc
    · rw [he]; rfl

theorem wit_ClassifyBands :
    (14 ≤ (16#16).toNat ∧ (16#16).toNat ≤ 16) ∧ (27 ≤ (27#16).toNat ∧ (27#16).toNat ≤ 33) ∧
    (¬(14 ≤ (17#16).toNat ∧ (17#16).toNat ≤ 16) ∧ ¬(27 ≤ (17#16).toNat ∧ (17#16).toNat ≤ 33)) := by decide

theorem wit_RxAcceptance : State.reset.mode = .standard ∧ bidi.mode = .bidirectional := ⟨rfl, rfl⟩

theorem wit_RxCompletionCounts_capture : ∃ s : State, s.pins.rst = false ∧ s.busy = true ∧ s.phase = .capture ∧
    s.cnt + 1 = window Config.build s.rate := ⟨{ capturing with cnt := 739 }, rfl, rfl, rfl, by decide⟩

/-- The premises of R101's chain: samples of which no cells are recovered and samples of which some are, a symbol with a bad
quintet, the symbol of a frame with a wrong CRC, and those of a period and of an EDT frame. -/
theorem wit_RxCompletionCounts_chain :
    recover Config.build (levels [(false, 48), (true, 692)]) .k1200 = none ∧
    (recover Config.build (levels [(false, 32), (true, 708)]) .k1200).isSome = true ∧
    (∀ n, Config.build.gcrTable n ≠ ((0x36D24#20) ^^^ ((0x36D24#20) >>> 1)).extractLsb' (5 * 3) 5) ∧
    (∀ k, k < 4 → Config.build.gcrTable ((0x4647#16).extractLsb' (4 * k) 4) =
      ((0xB6D25#20) ^^^ ((0xB6D25#20) >>> 1)).extractLsb' (5 * k) 5) ∧
    (¬crcRight 0x4647#16 .standard ∧ (crcRight 0x4646#16 .standard ∧ (0x4646#16).getLsbD Config.build.edtBit = true) ∧
      (crcRight 0xA25D#16 .standard ∧ (0xA25D#16).getLsbD Config.build.edtBit = false)) :=
  ⟨by decide +kernel, by decide +kernel, by decide, by decide, wit_DecTelemetryResult⟩

theorem wit_RxCompletionCounts_listen : ∃ s : State, s.pins.rst = false ∧ s.busy = true ∧ s.phase = .listen ∧
    s.cnt + 1 = Config.build.tRxTimeout ∧ s.pins.lineIn = true :=
  ⟨{ listening with cnt := Config.tRxTimeoutPred }, rfl, rfl, rfl, rfl, rfl⟩

/-- A block about to accept RX while the wire does the given ticks. -/
def rxWith (env : List TickIn) : State := { bidi with host := [.submit 0x90000000#32], env := env }

theorem accepts_rxWith (p : TickIn) (env : List TickIn) (h : p.rst = false) : (rxWith (p :: env)).Accepts .rx :=
  ⟨⟨h, rfl, rfl⟩, 0x90000000#32, rfl, rfl⟩

/-- The ticks of the acceptance and of SWITCH. -/
def quietTicks (P : Config.Build) : List TickIn := List.replicate (1 + P.tSwitch) ⟨false, true, 0#3⟩

theorem accepts_quiet (P : Config.Build) (env after : List TickIn) : (rxWith (quietTicks P ++ env ++ after)).Accepts .rx := by
  have : quietTicks P = ⟨false, true, 0#3⟩ :: List.replicate P.tSwitch ⟨false, true, 0#3⟩ := by
    rw [quietTicks, Nat.add_comm, List.replicate_succ]
  rw [this]
  exact accepts_rxWith _ _ rfl

theorem quietTicks_rst (P : Config.Build) (p : TickIn) (hp : p ∈ quietTicks P) : p.rst = false := by
  rw [List.eq_of_mem_replicate hp]

theorem wit_RxTicksMatchAbstraction (P : Config.Build) (hP : P.Legal) (k : Nat) (hk : k < P.tRxTimeout) :
    ∃ (s : State) (quiet after : List TickIn) (reply : List Level),
      s.Accepts .rx ∧ s.mode = .bidirectional ∧
      s.env = quiet ++ ticksOf (List.replicate k true) ++ ticksOf reply ++ after ∧
      quiet.length = 1 + P.tSwitch ∧ (∀ p ∈ quiet, p.rst = false) ∧ k < P.tRxTimeout ∧
      reply.length = window P s.rate ∧ reply.head? = some false := by
  refine ⟨rxWith (quietTicks P ++ ticksOf (List.replicate k true) ++
    ticksOf (List.replicate (window P .k600) false) ++ []), quietTicks P, [], List.replicate (window P .k600) false,
    ?_, rfl, rfl, List.length_replicate, quietTicks_rst P, hk, List.length_replicate, ?_⟩
  · rw [List.append_assoc (quietTicks P)]
    exact accepts_quiet P _ _
  · obtain ⟨n, hn⟩ := Nat.exists_eq_succ_of_ne_zero (Nat.ne_of_gt (Nat.lt_trans Nat.zero_lt_one (one_lt_window hP .k600)))
    rw [hn]
    rfl

theorem wit_RxTicksMatchAbstraction_bounds (P : Config.Build) (hP : P.Legal) :
    0 < P.tRxTimeout ∧ P.tRxTimeout - 1 < P.tRxTimeout :=
  ⟨hP.tRxTimeout, Nat.sub_lt hP.tRxTimeout (by decide)⟩

theorem wit_RxTimesOutOnSilence (P : Config.Build) : ∃ (s : State) (quiet after : List TickIn),
    s.Accepts .rx ∧ s.mode = .bidirectional ∧
    s.env = quiet ++ ticksOf (List.replicate P.tRxTimeout true) ++ after ∧
    quiet.length = 1 + P.tSwitch ∧ (∀ p ∈ quiet, p.rst = false) :=
  ⟨rxWith (quietTicks P ++ ticksOf (List.replicate P.tRxTimeout true) ++ []), quietTicks P, [],
    accepts_quiet P _ _, rfl, rfl, List.length_replicate, quietTicks_rst P⟩

theorem wit_RunsAreMaximal : runsOf [true, false] = [] ++ (true, 1) :: (false, 1) :: [] := by decide

theorem wit_RecoverGivesTwentyOneCells :
    (recover Config.build (levels [(false, 32), (true, 708)]) .k1200).isSome = true ∧
    (levels [(false, 32), (true, 708)]).head? = some false := by decide +kernel

/-- One derivation of each form of the relation: nine cells low and one final high run, and a run of 21 low cells. -/
theorem wit_RecoverGivesTwentyOneCells_relation :
    Recovered 32 21 [(false, 288), (true, 452)] (List.replicate 9 false ++ List.replicate 12 true) ∧
    Recovered 32 21 [(false, 672)] (List.replicate 21 false) ∧ ¬FinalHigh 32 21 (true, 604) ∧ ¬ReadsAs 32 35 0 ∧
    ¬ReadsAs 32 36 1 :=
  ⟨.more (n := 9) (fun h => by cases h.1) ⟨by decide, by decide, by decide, by decide⟩ (by decide)
      (.fill ⟨rfl, by decide⟩),
    .last (fun h => by cases h.1) ⟨by decide, by decide, by decide, by decide⟩,
    fun h => absurd h.2 (by decide), fun h => absurd h.some_cell (by decide), fun h => absurd h.not_long (by decide)⟩

theorem wit_DeframeBits : (List.replicate 21 true).length = 21 ∧ 19 < 20 := by decide

theorem wit_ReceiveTicksFrame_switch : ∃ s t : State, s.pins.rst = false ∧ s.phase.released ∧ s.phase = .switch ∧
    step s = .next t ∧ t.busy = true :=
  ⟨{ listening with phase := .switch, cnt := 1439 }, _, rfl, .inl rfl, rfl, rfl, rfl⟩

theorem wit_ReceiveTicksFrame_capture : ∃ s t : State, s.pins.rst = false ∧ s.phase.released ∧ step s = .next t ∧
    t.busy = true := by
  refine ⟨capturing, _, rfl, .inr (.inr rfl), (step_eq_stepIn _).trans (stepIn_capture rfl rfl rfl), ?_⟩
  rcases State.tickCapture_cases Config.build capturing.advance capturing.pins.lineIn with ⟨_, h⟩ | ⟨h, _⟩
  · rw [h]; rfl
  · exact absurd h (by decide)

theorem wit_ConfigResult :
    (Mode.bidirectional = .bidirectional ∧ Rate.k150 = .k150) ∧
    ¬(Mode.bidirectional = .bidirectional ∧ Rate.k300 = .k150) := by decide

theorem wit_ClaimResult : State.reset.owned = false ∧ ({ State.reset with owned := true } : State).owned = true :=
  ⟨rfl, rfl⟩

theorem wit_StopAlwaysReachesTheWire : ∃ (s : State) (later : List HostAct),
    s.Ready ∧ s.NoReset ∧ s.host = pseudoStop ++ later ∧ s.fault = true :=
  ⟨{ bidi with host := pseudoStop, fault := true }, [], ⟨rfl, rfl, rfl⟩,
    by simp [State.NoReset, bidi, State.reset], by simp, rfl⟩

theorem wit_RegisterLayouts : 5 ≤ (5#3).toNat ∧ 5 ≤ (7#3).toNat := by decide

theorem wit_RegistersStableWhileBusy : ∃ s t : State, s.busy = true ∧ s.pins.rst = false ∧ step s = .next t ∧
    t.busy = true := ⟨sending, _, rfl, rfl, rfl, rfl⟩

theorem wit_PhaseTransitions_idle : ∃ t, State.reset.pins.rst = false ∧ step .reset = .next t := ⟨_, rfl, rfl⟩

theorem wit_PhaseTransitions_busy (p : Phase) (hp : p ≠ .idle) :
    ∃ s t : State, s.phase = p ∧ s.pins.rst = false ∧ step s = .next t := by
  cases p with
  | idle => exact absurd rfl hp
  | tx => exact ⟨sending, _, rfl, rfl, (step_eq_stepIn _).trans (stepIn_tx rfl rfl rfl)⟩
  | trail => exact ⟨{ sending with phase := .trail }, _, rfl, rfl, (step_eq_stepIn _).trans (stepIn_trail rfl rfl rfl)⟩
  | switch => exact ⟨{ listening with phase := .switch }, _, rfl, rfl, (step_eq_stepIn _).trans (stepIn_switch rfl rfl rfl)⟩
  | listen => exact ⟨listening, _, rfl, rfl, (step_eq_stepIn _).trans (stepIn_listen rfl rfl rfl)⟩
  | capture => exact ⟨capturing, _, rfl, rfl, (step_eq_stepIn _).trans (stepIn_capture rfl rfl rfl)⟩

theorem wit_OnlyTxAndRxLeaveIdle_tx : ∃ s t : State, s.phase = .idle ∧ step s = .next t ∧ t.phase = .tx :=
  ⟨port bidi 0x80003E8A#32, _, rfl, rfl, rfl⟩

theorem wit_OnlyTxAndRxLeaveIdle_rx : ∃ s t : State, s.phase = .idle ∧ step s = .next t ∧ t.phase = .switch :=
  ⟨port bidi 0x90000000#32, _, rfl, rfl, rfl⟩

theorem wit_FaultChangesOnlyAsSpecified_cleared : ∃ s t : State, step s = .next t ∧ s.fault = true ∧ t.fault = false :=
  ⟨port { bidi with fault := true } 0xD0000000#32, _, rfl, rfl, rfl⟩

/-- The last sample of a reply at 1200k whose symbol is that of 0x4647, with the count one below the threshold. -/
def tripping : State :=
  { capturing with
    cnt := 739, crcFail := 2#8, samples := (nominalReply Config.build 0xB6D25#20 .k1200).dropLast, env := [⟨false, true, 0#3⟩] }

theorem outcome_tripping :
    outcomeOf Config.build (answerOf Config.build (tripping.samples ++ [true]) .k1200) = .crcMismatch := by decide +kernel

theorem wit_FaultChangesOnlyAsSpecified_set : ∃ s t : State, step s = .next t ∧ s.fault = false ∧ t.fault = true := by
  refine ⟨tripping, _, (step_eq_stepIn _).trans (stepIn_capture rfl rfl rfl), rfl, ?_⟩
  rcases State.tickCapture_cases Config.build tripping.advance tripping.pins.lineIn with ⟨h, _⟩ | ⟨_, h⟩
  · exact absurd (by decide) h
  · rw [h]
    have : outcomeOf Config.build
        (answerOf Config.build (tripping.advance.samples ++ [tripping.pins.lineIn]) tripping.advance.rate) =
      .crcMismatch := outcome_tripping
    rw [this]
    decide

theorem wit_OwnedChangesOnlyByClaimOrReset :
    (∃ s t : State, step s = .next t ∧ s.owned = false ∧ t.owned = true) ∧
    (∃ s t : State, step s = .next t ∧ s.owned = true ∧ t.owned = false) :=
  ⟨⟨port .reset 0xC0000000#32, _, rfl, rfl, rfl⟩,
    ⟨{ State.reset with owned := true, env := [⟨true, true, 0#3⟩] }, _, rfl, rfl, rfl⟩⟩

theorem wit_CountersChangeOnlyByRxOrReinit : ∃ s t : State, step s = .next t ∧ t.discard ≠ s.discard :=
  ⟨port { bidi with discard := 7#16 } 0xD0000000#32, _, rfl, by decide⟩

theorem wit_CfgChangesOnlyByConfig : ∃ s t : State, s.pins.rst = false ∧ step s = .next t ∧
    t.regRead 2#3 ≠ s.regRead 2#3 := ⟨port .reset 0xB0000306#32, _, rfl, rfl, by decide⟩

theorem wit_LineInIgnoredElsewhere : ∃ (s : State) (p : TickIn) (later : List TickIn),
    s.env = p :: later ∧ s.phase ≠ .listen ∧ s.phase ≠ .capture :=
  ⟨{ sending with env := [⟨false, false, 0#3⟩] }, ⟨false, false, 0#3⟩, [], rfl, by decide, by decide⟩

theorem wit_FaultStopsNoOperation :
    (∃ t, step State.reset = .next t ∧ ¬(State.reset.pins.rst = true ∨ State.reset.Accepts .reinit)) ∧
    ∃ s t : State, step s = .next t ∧ s.Accepts .reinit :=
  ⟨⟨_, rfl, fun h => h.elim (by decide) fun h => by obtain ⟨_, w, hw, _⟩ := h; cases hw⟩,
    ⟨port { bidi with fault := true } 0xD0000000#32, _, rfl, ⟨rfl, rfl, rfl⟩, 0xD0000000#32, rfl, rfl⟩⟩

theorem wit_NominalReplyIsRecovered : other.Legal ∧
    ∃ w : Frame, answerOf small (nominalReply small (gcrEncodeWith Config.gcrTable w) .k1200) .k1200 =
      .cells (gcrEncodeWith Config.gcrTable w) := ⟨other_legal, 0x4646#16, by decide +kernel⟩

theorem wit_LineInIgnoredElsewhere_register : ∃ (s : State) (p : TickIn) (later : List TickIn),
    s.env = p :: later ∧ s.phase = .capture ∧ p.regIdx ≠ 7#3 :=
  ⟨{ capturing with env := [⟨false, false, 0#3⟩] }, ⟨false, false, 0#3⟩, [], rfl, rfl, by decide⟩

end Sys2Proof.Tests
end

section
/-! PROOFS. Acceptance of a word: what acceptance leaves unchanged, and the step it makes, in every build. -/

namespace Sys2Proof.Machine

/-! ## The frame of acceptance (R34, R84) -/

theorem State.accepted_sameConfig (s : State) : SameConfig s s.accepted where
  rate := s.accepted_rate
  mode := s.accepted_mode
  edtAdv := s.accepted_edtAdv
  thresh := s.accepted_thresh

theorem State.accepted_sameValidator (s : State) : SameValidator s s.accepted where
  crcFail := s.accepted_crcFail
  discard := s.accepted_discard
  fault := s.accepted_fault

theorem State.accepted_sameWork (s : State) : SameWork s s.accepted where
  shreg := s.accepted_shreg
  bitIdx := s.accepted_bitIdx
  cnt := s.accepted_cnt
  samples := s.accepted_samples

/-! ## The step that accepts a word (R34, R43) -/

theorem stepIn_of_accepts (P : Config.Build) {s : State} {i : Instr} (h : s.Accepts i) :
    stepIn P s = execIn P i s.accepted := by
  obtain ⟨hready, w, hword, hdecode⟩ := h
  simp only [stepIn_ready hready, hword, runWord, hdecode]

theorem step_of_accepts {s : State} {i : Instr} (h : s.Accepts i) : step s = exec i s.accepted := by
  rw [step_eq_stepIn, exec_eq_execIn, stepIn_of_accepts Config.build h]

/-- Settles O7: the accepting step by `step_of_accepts`, the accepted state field by field from its laws, and the host's
machine as the legal build `Config.build`. -/
theorem stepRunsDecodedInstruction : Obligations.StepRunsDecodedInstruction :=
  ⟨fun s _ h =>
    ⟨step_of_accepts h, s.accepted_done, s.accepted_err, s.accepted_errcode, s.accepted_host, s.accepted_env,
      s.accepted_lineOe, s.accepted_lineOut, s.accepted_result, s.accepted_owned, s.accepted_busy, s.accepted_phase,
      s.accepted_sameConfig, s.accepted_sameValidator, s.accepted_sameWork⟩,
    build_legal, step_eq_stepIn, exec_eq_execIn⟩

end Sys2Proof.Machine
end

section
/-! PROOFS. The step in two halves, the command port and the driver, and what the ticks of the driver leave unchanged. -/

namespace Sys2Proof.Machine

/-! ## The two halves of a step (R16, R34, R86, R97) -/

/-- A step in IDLE: nothing is presented, or a word without an operation, or an operation is accepted. -/
theorem stepIn_port_cases {P : Config.Build} {s t : State} (hrst : s.pins.rst = false) (hp : s.phase = .idle)
    (h : stepIn P s = .next t) :
    t = s.advance.drive false ∨ t = s.accepted.raise .illegalOp ∨
      ∃ i, s.Accepts i ∧ execIn P i s.accepted = .next t := by
  rcases stepIn_cases h with ⟨hr, -⟩ | ⟨-, -, -, -, ht⟩ | ⟨-, -, -, w, -, e, -, ht⟩ | ⟨-, hb, -, w, hw, i, hd, ht⟩ |
    ⟨-, -, hq, -⟩ | ⟨-, -, hq, -⟩ | ⟨-, -, hq, -⟩ | ⟨-, -, hq, -⟩ | ⟨-, -, hq, -⟩
  · simp [hrst] at hr
  · exact .inl ht
  · exact .inr (.inl ht)
  · exact .inr (.inr ⟨i, ⟨⟨hrst, hb, hp⟩, w, hw, hd⟩, ht⟩)
  all_goals simp [hp] at hq

/-- A step while the driver is at work is the tick of its phase. -/
theorem stepIn_driver_cases {P : Config.Build} {s t : State} (hrst : s.pins.rst = false) (hp : s.phase ≠ .idle)
    (h : stepIn P s = .next t) :
    s.busy = true ∧
      ((s.phase = .tx ∧ t = s.advance.tickTx P) ∨ (s.phase = .trail ∧ t = s.advance.tickTrail P) ∨
        (s.phase = .switch ∧ t = s.advance.tickSwitch P) ∨
        (s.phase = .listen ∧ t = s.advance.tickListen P s.pins.lineIn) ∨
        (s.phase = .capture ∧ t = s.advance.tickCapture P s.pins.lineIn)) := by
  rcases stepIn_cases h with ⟨hr, -⟩ | ⟨-, -, hq, -⟩ | ⟨-, -, hq, -⟩ | ⟨-, -, hq, -⟩ |
    ⟨-, hb, ht⟩ | ⟨-, hb, ht⟩ | ⟨-, hb, ht⟩ | ⟨-, hb, ht⟩ | ⟨-, hb, ht⟩
  · simp [hrst] at hr
  · exact absurd hq hp
  · exact absurd hq hp
  · exact absurd hq hp
  · exact ⟨hb, .inl ht⟩
  · exact ⟨hb, .inr (.inl ht)⟩
  · exact ⟨hb, .inr (.inr (.inl ht))⟩
  · exact ⟨hb, .inr (.inr (.inr (.inl ht)))⟩
  · exact ⟨hb, .inr (.inr (.inr (.inr ht)))⟩

/-- A step at a tick with `rst` = 1 (R131). -/
theorem stepIn_reset {P : Config.Build} {s : State} (hrst : s.pins.rst = true) :
    stepIn P s = .next s.advance.resetBlock := by
  simp [stepIn, clockPeriod, hrst]

/-! ## Frames that the passing of the inputs does not touch -/

theorem SameConfig.of_advance {s t : State} (h : SameConfig s.advance t) : SameConfig s t :=
  ⟨h.rate, h.mode, h.edtAdv, h.thresh⟩

theorem SameValidator.of_advance {s t : State} (h : SameValidator s.advance t) : SameValidator s t :=
  ⟨h.crcFail, h.discard, h.fault⟩

theorem SameStatus.of_advance {s t : State} (h : SameStatus s.advance t) : SameStatus s t :=
  ⟨h.done, h.err, h.errcode⟩

/-! ## The ticks of TX and TRAIL (R86) -/

/-- What a tick of TX or TRAIL does besides its count: it goes on with the status as it was, or it completes (R28, R39). -/
structure TransmitEffect (s t : State) : Prop where
  config    : SameConfig s t
  validator : SameValidator s t
  inputs    : SameInputs s t
  owned     : t.owned = s.owned
  shreg     : t.shreg = s.shreg
  samples   : t.samples = s.samples
  lineOe    : t.lineOe = true
  goesOn_or_completes :
    (t.busy = s.busy ∧ SameStatus s t ∧ t.result = s.result) ∨ t.CompletedWith (s.shreg.setWidth 32)

theorem State.tickTx_effect (P : Config.Build) (s : State) : TransmitEffect s (s.tickTx P) := by
  rcases s.tickTx_cases P with ⟨-, h⟩ | ⟨-, -, h⟩ | ⟨-, -, -, h⟩ | ⟨-, -, -, h⟩ <;> rw [h]
  case inr.inr.inr =>
    exact ⟨⟨rfl, rfl, rfl, rfl⟩, ⟨rfl, rfl, rfl⟩, ⟨rfl, rfl⟩, rfl, rfl, rfl, rfl,
      .inr (State.complete_completedWith _ _)⟩
  all_goals
    exact ⟨⟨rfl, rfl, rfl, rfl⟩, ⟨rfl, rfl, rfl⟩, ⟨rfl, rfl⟩, rfl, rfl, rfl, rfl, .inl ⟨rfl, ⟨rfl, rfl, rfl⟩, rfl⟩⟩

theorem State.tickTrail_effect (P : Config.Build) (s : State) : TransmitEffect s (s.tickTrail P) := by
  rcases s.tickTrail_cases P with ⟨-, h⟩ | ⟨-, h⟩ <;> rw [h]
  · exact ⟨⟨rfl, rfl, rfl, rfl⟩, ⟨rfl, rfl, rfl⟩, ⟨rfl, rfl⟩, rfl, rfl, rfl, rfl, .inl ⟨rfl, ⟨rfl, rfl, rfl⟩, rfl⟩⟩
  · exact ⟨⟨rfl, rfl, rfl, rfl⟩, ⟨rfl, rfl, rfl⟩, ⟨rfl, rfl⟩, rfl, rfl, rfl, rfl,
      .inr (State.complete_completedWith _ _)⟩

/-- A step in TX or TRAIL has the effect of a transmit tick, beside the tick of the inputs. -/
theorem stepIn_transmitEffect {P : Config.Build} {s t : State} (hrst : s.pins.rst = false)
    (hp : s.phase = .tx ∨ s.phase = .trail) (h : stepIn P s = .next t) :
    s.busy = true ∧ TransmitEffect s.advance t := by
  have hidle : s.phase ≠ .idle := by rcases hp with hp | hp <;> simp [hp]
  obtain ⟨hb, ⟨-, rfl⟩ | ⟨-, rfl⟩ | ⟨hq, -⟩ | ⟨hq, -⟩ | ⟨hq, -⟩⟩ := stepIn_driver_cases hrst hidle h
  · exact ⟨hb, s.advance.tickTx_effect P⟩
  · exact ⟨hb, s.advance.tickTrail_effect P⟩
  all_goals simp [hq] at hp

/-- Settles O35: the tick goes on or completes, and it is `busy` that tells which. -/
theorem transmitTicksFrame : Obligations.TransmitTicksFrame := by
  intro s t hrst hp h
  rw [step_eq_stepIn] at h
  obtain ⟨hb, e⟩ := stepIn_transmitEffect hrst hp h
  refine ⟨e.config.of_advance, e.validator.of_advance, e.owned, e.shreg, e.samples, e.lineOe,
    e.inputs.host, e.inputs.env, fun htb => ?_, fun htb => ?_⟩
  · obtain ⟨-, hst, hres⟩ | hdone := e.goesOn_or_completes
    · exact ⟨hst.of_advance, hres⟩
    · simp [hdone.busy] at htb
  · obtain ⟨hbusy, -⟩ | hdone := e.goesOn_or_completes
    · simp [hbusy, hb] at htb
    · exact hdone

/-! ## The ticks of SWITCH, LISTEN and CAPTURE (R97) -/

/-- What a tick of SWITCH, LISTEN or CAPTURE does besides its count and its sample: it goes on with the line, the validator
and the status as they were, or RX is over (R28, R39). -/
structure ReceiveEffect (s t : State) : Prop where
  config : SameConfig s t
  inputs : SameInputs s t
  owned  : t.owned = s.owned
  shreg  : t.shreg = s.shreg
  bitIdx : t.bitIdx = s.bitIdx
  goesOn_or_ends :
    (t.busy = s.busy ∧ SameStatus s t ∧ SameValidator s t ∧ t.result = s.result ∧ t.lineOe = s.lineOe) ∨
      (t.busy = false ∧ t.phase = .idle)

/-- The end of RX after a last tick that has written at most `cnt` and `samples`. -/
theorem State.finishRx_effect {s u : State} (o : RxOutcome) (hc : SameConfig s u) (hi : SameInputs s u)
    (ho : u.owned = s.owned) (hr : u.shreg = s.shreg) (hb : u.bitIdx = s.bitIdx) : ReceiveEffect s (u.finishRx o) := by
  obtain ⟨hc', hw', hi', ho', hp', hb', -⟩ := u.finishRx_frame o
  exact ⟨⟨hc'.rate.trans hc.rate, hc'.mode.trans hc.mode, hc'.edtAdv.trans hc.edtAdv, hc'.thresh.trans hc.thresh⟩,
    ⟨hi'.host.trans hi.host, hi'.env.trans hi.env⟩, ho'.trans ho, hw'.shreg.trans hr, hw'.bitIdx.trans hb,
    .inr ⟨hb', hp'⟩⟩

theorem State.tickSwitch_effect (P : Config.Build) (s : State) : ReceiveEffect s (s.tickSwitch P) := by
  rcases s.tickSwitch_cases P with ⟨-, h⟩ | ⟨-, h⟩ <;> rw [h] <;>
    exact ⟨⟨rfl, rfl, rfl, rfl⟩, ⟨rfl, rfl⟩, rfl, rfl, rfl,
      .inl ⟨rfl, ⟨rfl, rfl, rfl⟩, ⟨rfl, rfl, rfl⟩, rfl, rfl⟩⟩

theorem State.tickListen_effect (P : Config.Build) (s : State) (l : Level) : ReceiveEffect s (s.tickListen P l) := by
  rcases s.tickListen_cases P l with ⟨-, h⟩ | ⟨-, -, h⟩ | ⟨-, -, h⟩ <;> rw [h]
  case inr.inr => exact State.finishRx_effect _ ⟨rfl, rfl, rfl, rfl⟩ ⟨rfl, rfl⟩ rfl rfl rfl
  all_goals
    exact ⟨⟨rfl, rfl, rfl, rfl⟩, ⟨rfl, rfl⟩, rfl, rfl, rfl,
      .inl ⟨rfl, ⟨rfl, rfl, rfl⟩, ⟨rfl, rfl, rfl⟩, rfl, rfl⟩⟩

theorem State.tickCapture_effect (P : Config.Build) (s : State) (l : Level) : ReceiveEffect s (s.tickCapture P l) := by
  rcases s.tickCapture_cases P l with ⟨-, h⟩ | ⟨-, h⟩ <;> rw [h]
  · exact ⟨⟨rfl, rfl, rfl, rfl⟩, ⟨rfl, rfl⟩, rfl, rfl, rfl,
      .inl ⟨rfl, ⟨rfl, rfl, rfl⟩, ⟨rfl, rfl, rfl⟩, rfl, rfl⟩⟩
  · exact State.finishRx_effect _ ⟨rfl, rfl, rfl, rfl⟩ ⟨rfl, rfl⟩ rfl rfl rfl

theorem State.tickSwitch_samples (P : Config.Build) (s : State) : (s.tickSwitch P).samples = s.samples := by
  rcases s.tickSwitch_cases P with ⟨-, h⟩ | ⟨-, h⟩ <;> rw [h]

theorem State.tickSwitch_sameValidator (P : Config.Build) (s : State) : SameValidator s (s.tickSwitch P) := by
  rcases s.tickSwitch_cases P with ⟨-, h⟩ | ⟨-, h⟩ <;> rw [h] <;> exact ⟨rfl, rfl, rfl⟩

/-- The tick of LISTEN counts nothing, not even when it ends in `Timeout` (R103). -/
theorem State.tickListen_sameValidator (P : Config.Build) (s : State) (l : Level) :
    SameValidator s (s.tickListen P l) := by
  rcases s.tickListen_cases P l with ⟨-, h⟩ | ⟨-, -, h⟩ | ⟨-, -, h⟩ <;> rw [h] <;> exact ⟨rfl, rfl, rfl⟩

theorem Phase.released_ne_idle {p : Phase} (h : p.released) : p ≠ .idle := by
  rintro rfl
  simp [Phase.released] at h

/-- A step with the line released has the effect of a receive tick, beside the tick of the inputs. -/
theorem stepIn_receiveEffect {P : Config.Build} {s t : State} (hrst : s.pins.rst = false) (hp : s.phase.released)
    (h : stepIn P s = .next t) : ReceiveEffect s.advance t := by
  obtain ⟨-, ⟨hq, -⟩ | ⟨hq, -⟩ | ⟨-, rfl⟩ | ⟨-, rfl⟩ | ⟨-, rfl⟩⟩ :=
    stepIn_driver_cases hrst (Phase.released_ne_idle hp) h
  · simp [Phase.released, hq] at hp
  · simp [Phase.released, hq] at hp
  · exact s.advance.tickSwitch_effect P
  · exact s.advance.tickListen_effect P _
  · exact s.advance.tickCapture_effect P _

/-- Settles O45: the effect of a receive tick; the samples are kept by the tick of SWITCH alone. -/
theorem receiveTicksFrame : Obligations.ReceiveTicksFrame := by
  intro s t hrst hp h
  rw [step_eq_stepIn] at h
  have e := stepIn_receiveEffect hrst hp h
  refine ⟨e.config.of_advance, e.owned, e.shreg, e.bitIdx, e.inputs.host, e.inputs.env, fun hsw => ?_,
    fun htb => ?_⟩
  · have hb : s.busy = true := (stepIn_driver_cases hrst (Phase.released_ne_idle hp) h).1
    rw [stepIn_switch hrst hb hsw] at h
    cases h
    exact s.advance.tickSwitch_samples _
  · obtain ⟨-, hst, hv, hres, hoe⟩ | ⟨hbusy, -⟩ := e.goesOn_or_ends
    · exact ⟨hst.of_advance, hv.of_advance, hres, hoe⟩
    · simp [hbusy] at htb

/-! ## No step stops (R150) -/

theorem runWord_total (P : Config.Build) (w : Word) (s : State) : ∃ t, runWord (execIn P) w s = .next t := by
  unfold runWord
  cases decode w with
  | error => exact ⟨_, rfl⟩
  | ok i => exact execIn_total P i s

theorem stepIn_total (P : Config.Build) {s : State} (h : s.busy = true ↔ s.phase ≠ .idle) :
    ∃ t, stepIn P s = .next t := by
  by_cases hrst : s.pins.rst = true
  · exact ⟨_, stepIn_reset hrst⟩
  · have hrst' : s.pins.rst = false := by simpa using hrst
    cases hp : s.phase with
    | idle =>
      have hb : s.busy = false := by simpa [hp] using h
      rw [stepIn_ready ⟨hrst', hb, hp⟩]
      cases s.presented with
      | none => exact ⟨_, rfl⟩
      | some w => exact runWord_total P w s.accepted
    | tx => exact ⟨_, stepIn_tx hrst' (h.mpr (by simp [hp])) hp⟩
    | trail => exact ⟨_, stepIn_trail hrst' (h.mpr (by simp [hp])) hp⟩
    | switch => exact ⟨_, stepIn_switch hrst' (h.mpr (by simp [hp])) hp⟩
    | listen => exact ⟨_, stepIn_listen hrst' (h.mpr (by simp [hp])) hp⟩
    | capture => exact ⟨_, stepIn_capture hrst' (h.mpr (by simp [hp])) hp⟩

/-- Settles O5: in every phase the step is one of its total parts. -/
theorem coherentStateNeverStops : Obligations.CoherentStateNeverStops := by
  intro s h
  rw [step_eq_stepIn]
  exact stepIn_total Config.build h

end Sys2Proof.Machine
end

section
/-! PROOFS. The invariants of R29: they hold after reset and every step keeps them. -/

namespace Sys2Proof.Machine

/-! ## Reset (R27, R131) -/

theorem State.reset_regRead (i : BitVec 3) : State.reset.regRead i = 0#32 := by
  have h : ∀ i : BitVec 3, State.reset.regRead i = 0#32 := by decide
  exact h i

theorem State.resetBlock_isReset (s : State) : s.resetBlock.IsReset :=
  ⟨rfl, rfl, rfl, rfl, rfl, rfl, rfl, rfl, rfl, rfl, rfl, rfl, rfl, rfl, rfl, rfl, State.reset_regRead⟩

/-- Settles O1: power-on is the reset of a block, and so is the step at a tick with `rst` = 1. -/
theorem resetValues : Obligations.ResetValues := by
  refine ⟨State.reset.resetBlock_isReset, fun s hrst => ⟨s.advance.resetBlock, ?_, s.advance.resetBlock_isReset⟩⟩
  rw [step_eq_stepIn]
  exact stepIn_reset hrst

/-- The reset values meet R29, whatever the hidden working state is. -/
theorem State.IsReset.inv {t : State} (h : t.IsReset) : t.Inv where
  busy_phase    := by simp [h.busy, h.phase]
  busy_pending  := by simp [h.busy]
  err_done      := by simp [h.err]
  errcode_err   := by simp [h.errcode, h.err]
  errcode_block := by simp [h.errcode]
  cfg_legal     := by simp [h.mode]
  released      := by simp [h.lineOe, h.phase, Phase.released]
  idle_level    := by simp [h.lineOut, h.mode, Mode.bit]

/-- In IDLE the driver has no working state to keep. -/
theorem State.driverInv_of_idle (P : Config.Build) {t : State} (h : t.phase = .idle) : t.DriverInv P := by
  constructor <;> simp [h, Phase.released]

/-- Settles O2: the reset values meet R29, and the driver is in IDLE. -/
theorem resetMeetsInvariants : Obligations.ResetMeetsInvariants :=
  ⟨State.reset.resetBlock_isReset.inv, fun P => State.driverInv_of_idle P rfl⟩

/-! ## The shared operations (R119, R120) -/

/-- The configuration is not Bidirectional at 150 kbit/s (R20). -/
def State.CfgLegal (s : State) : Prop := ¬(s.mode = .bidirectional ∧ s.rate = .k150)

/-- The line is driven at the idle level of the mode (R84). -/
structure State.LineIdle (s : State) : Prop where
  lineOe  : s.lineOe = true
  lineOut : s.lineOut = s.mode.bit

theorem State.drive_lineIdle (s : State) : (s.drive false).LineIdle := ⟨rfl, by simp⟩

/-- R29 between operations: the status group is consistent, the configuration legal and the line idle. -/
theorem State.Inv.of_idle {t : State} (hb : t.busy = false) (hp : t.phase = .idle) (hd : t.err = true → t.done = true)
    (he : t.errcode = .none ↔ t.err = false) (hcode : t.errcode ≠ .armTimeout ∧ t.errcode ≠ .channelFault)
    (hc : t.CfgLegal) (hl : t.LineIdle) : t.Inv where
  busy_phase    := by simp [hb, hp]
  busy_pending  := by simp [hb]
  err_done      := hd
  errcode_err   := he
  errcode_block := hcode
  cfg_legal     := hc
  released      := by simp [hl.lineOe, hp, Phase.released]
  idle_level _  := hl.lineOut

theorem State.complete_inv {s : State} (r : Word) (hc : s.CfgLegal) (hl : s.LineIdle) : (s.complete r).Inv :=
  .of_idle rfl rfl (by simp) (by simp) (by simp) hc ⟨hl.lineOe, hl.lineOut⟩

theorem State.raise_inv {s : State} {e : ErrCode} (hn : e ≠ .none) (ha : e ≠ .armTimeout) (hf : e ≠ .channelFault)
    (hc : s.CfgLegal) (hl : s.LineIdle) : (s.raise e).Inv :=
  .of_idle rfl rfl (by simp) (by simpa using hn) ⟨ha, hf⟩ hc ⟨hl.lineOe, hl.lineOut⟩

theorem RxOutcome.code_block (o : RxOutcome) : o.code ≠ .armTimeout ∧ o.code ≠ .channelFault := by
  cases o <;> simp [RxOutcome.code]

theorem State.finishRx_inv {s : State} (o : RxOutcome) (hc : s.CfgLegal) : (s.finishRx o).Inv := by
  obtain ⟨hcfg, -, -, -, hp, hb, hd, hoe, hout⟩ := s.finishRx_frame o
  have hcode := s.finishRx_errcode o
  refine .of_idle hb hp (fun _ => hd) ?_ (hcode ▸ o.code_block) ?_ ⟨hoe, hout.trans (by rw [hcfg.mode])⟩
  · rw [hcode, s.finishRx_err o]
    simp
  · rw [State.CfgLegal, hcfg.mode, hcfg.rate]
    exact hc

/-- R29 for a step that ends no operation and starts none: only the line is to be looked at. -/
theorem State.Inv.of_sameStatus {s t : State} (h : s.Inv) (hb : t.busy = s.busy) (hp : t.phase = .idle ↔ s.phase = .idle)
    (hst : SameStatus s t) (hc : SameConfig s t) (hrel : t.lineOe = false ↔ t.phase.released)
    (hout : t.phase = .idle ∨ t.phase = .trail → t.lineOut = t.mode.bit) : t.Inv where
  busy_phase    := by rw [hb, ne_eq, hp]; exact h.busy_phase
  busy_pending  := by rw [hb, hst.done]; exact h.busy_pending
  err_done      := by rw [hst.err, hst.done]; exact h.err_done
  errcode_err   := by rw [hst.err, hst.errcode]; exact h.errcode_err
  errcode_block := by rw [hst.errcode]; exact h.errcode_block
  cfg_legal     := by rw [hc.mode, hc.rate]; exact h.cfg_legal
  released      := hrel
  idle_level    := hout

/-! ## The port: acceptance and the operations -/

theorem State.Inv.advance {s : State} (h : s.Inv) : s.advance.Inv :=
  h.of_sameStatus rfl .rfl ⟨rfl, rfl, rfl⟩ ⟨rfl, rfl, rfl, rfl⟩ h.released h.idle_level

theorem State.accepted_lineIdle (s : State) : s.accepted.LineIdle := ⟨s.accepted_lineOe, s.accepted_lineOut⟩

/-- A tick of IDLE without a word drives the idle level (R84). -/
theorem State.idleTick_inv {s : State} (h : s.Inv) (hp : s.phase = .idle) : (s.drive false).Inv :=
  h.of_sameStatus rfl .rfl ⟨rfl, rfl, rfl⟩ ⟨rfl, rfl, rfl, rfl⟩ (by simp [hp, Phase.released]) (by simp)

/-- What an operation makes of a state in which the status has been cleared and the line is idle (R34). -/
theorem execIn_inv {P : Config.Build} (hP : P.Legal) {i : Instr} {s t : State} (hc : s.CfgLegal) (hl : s.LineIdle)
    (hd : s.done = false) (he : s.err = false) (hcode : s.errcode = .none) (h : execIn P i s = .next t) : t.Inv := by
  obtain ⟨r, rfl⟩ | ⟨e, hn, ha, hf, rfl⟩ | ⟨f, -, -, rfl⟩ | ⟨-, -, rfl⟩ | ⟨r, m, a, n, -, hok, rfl⟩ | ⟨-, -, rfl⟩ |
    ⟨-, rfl⟩ := execIn_cases h
  · exact State.complete_inv r hc hl
  · exact State.raise_inv hn ha hf hc hl
  · -- TX drives the line from its first tick on.
    exact ⟨by simp, by simp [hd], by simp [he], by simp [he, hcode], by simp [hcode], hc,
      by simp [hl.lineOe, Phase.released], by simp⟩
  · -- RX releases the line.
    exact ⟨by simp, by simp [hd], by simp [he], by simp [he, hcode], by simp [hcode], hc,
      by simp [Phase.released], by simp⟩
  · exact State.complete_inv _ ((configLegal_iff hP r m).mp hok) (State.drive_lineIdle _)
  · exact State.complete_inv _ hc ⟨hl.lineOe, hl.lineOut⟩
  · exact State.complete_inv _ hc ⟨hl.lineOe, hl.lineOut⟩

/-! ## The ticks of the driver (R86, R97) -/

/-- The last tick of a bit is low in every legal build: a bit's high time is shorter than its period (R82). -/
theorem lastTick_low {P : Config.Build} (hP : P.Legal) {r : Rate} {cnt : Nat} (b : Bool) (hc : cnt + 1 = tbit P r) :
    decide (cnt < highTime P r b) = false := by
  have := highTime_lt_tbit hP r b
  simp only [decide_eq_false_iff_not]
  omega

theorem State.tickTx_inv {P : Config.Build} (hP : P.Legal) {s : State} (h : s.Inv) (hp : s.phase = .tx) :
    (s.tickTx P).Inv := by
  rcases s.tickTx_cases P with ⟨-, ht⟩ | ⟨-, -, ht⟩ | ⟨hc, -, -, ht⟩ | ⟨hc, -, -, ht⟩ <;> rw [ht]
  · exact h.of_sameStatus rfl .rfl ⟨rfl, rfl, rfl⟩ ⟨rfl, rfl, rfl, rfl⟩ (by simp [hp, Phase.released]) (by simp [hp])
  · exact h.of_sameStatus rfl .rfl ⟨rfl, rfl, rfl⟩ ⟨rfl, rfl, rfl, rfl⟩ (by simp [hp, Phase.released]) (by simp [hp])
  · exact h.of_sameStatus rfl (by simp [hp]) ⟨rfl, rfl, rfl⟩ ⟨rfl, rfl, rfl, rfl⟩ (by simp [Phase.released])
      (by simp [lastTick_low hP s.txBit hc])
  · exact State.complete_inv _ h.cfg_legal ⟨rfl, by simp [lastTick_low hP s.txBit hc]⟩

theorem State.tickTrail_inv (P : Config.Build) {s : State} (h : s.Inv) (hp : s.phase = .trail) :
    (s.tickTrail P).Inv := by
  rcases s.tickTrail_cases P with ⟨-, ht⟩ | ⟨-, ht⟩ <;> rw [ht]
  · exact h.of_sameStatus rfl .rfl ⟨rfl, rfl, rfl⟩ ⟨rfl, rfl, rfl, rfl⟩ (by simp [hp, Phase.released]) (by simp)
  · exact State.complete_inv _ h.cfg_legal ⟨rfl, by simp⟩

/-- R29 for a receive tick after which the line is still released. -/
theorem State.Inv.of_stillReleased {s t : State} (h : s.Inv) (hs : s.phase.released) (ht : t.phase.released)
    (hb : t.busy = s.busy) (hst : SameStatus s t) (hc : SameConfig s t) (hoe : t.lineOe = s.lineOe) : t.Inv := by
  refine h.of_sameStatus hb ?_ hst hc ?_ fun hq => ?_
  · simp [Phase.released_ne_idle hs, Phase.released_ne_idle ht]
  · simp [hoe, h.released.mpr hs, ht]
  · rcases hq with hq | hq <;> simp [hq, Phase.released] at ht

theorem State.tickSwitch_inv (P : Config.Build) {s : State} (h : s.Inv) (hp : s.phase = .switch) :
    (s.tickSwitch P).Inv := by
  rcases s.tickSwitch_cases P with ⟨-, ht⟩ | ⟨-, ht⟩ <;> rw [ht] <;>
    exact h.of_stillReleased (by simp [hp, Phase.released]) (by simp [hp, Phase.released]) rfl ⟨rfl, rfl, rfl⟩
      ⟨rfl, rfl, rfl, rfl⟩ rfl

theorem State.tickListen_inv (P : Config.Build) {s : State} (l : Level) (h : s.Inv) (hp : s.phase = .listen) :
    (s.tickListen P l).Inv := by
  rcases s.tickListen_cases P l with ⟨-, ht⟩ | ⟨-, -, ht⟩ | ⟨-, -, ht⟩ <;> rw [ht]
  case inr.inr => exact State.finishRx_inv _ h.cfg_legal
  all_goals
    exact h.of_stillReleased (by simp [hp, Phase.released]) (by simp [hp, Phase.released]) rfl ⟨rfl, rfl, rfl⟩
      ⟨rfl, rfl, rfl, rfl⟩ rfl

theorem State.tickCapture_inv (P : Config.Build) {s : State} (l : Level) (h : s.Inv) (hp : s.phase = .capture) :
    (s.tickCapture P l).Inv := by
  rcases s.tickCapture_cases P l with ⟨-, ht⟩ | ⟨-, ht⟩ <;> rw [ht]
  · exact h.of_stillReleased (by simp [hp, Phase.released]) (by simp [hp, Phase.released]) rfl ⟨rfl, rfl, rfl⟩
      ⟨rfl, rfl, rfl, rfl⟩ rfl
  · exact State.finishRx_inv _ h.cfg_legal

/-! ## The step -/

theorem stepIn_inv {P : Config.Build} (hP : P.Legal) {s t : State} (hs : s.Inv) (h : stepIn P s = .next t) : t.Inv := by
  by_cases hrst : s.pins.rst = true
  · rw [stepIn_reset hrst] at h
    cases h
    exact s.advance.resetBlock_isReset.inv
  · have hrst' : s.pins.rst = false := by simpa using hrst
    by_cases hp : s.phase = .idle
    · obtain rfl | rfl | ⟨i, -, hi⟩ := stepIn_port_cases hrst' hp h
      · exact State.idleTick_inv hs.advance hp
      · exact State.raise_inv (by decide) (by decide) (by decide) hs.cfg_legal s.accepted_lineIdle
      · exact execIn_inv (s := s.accepted) hP hs.cfg_legal s.accepted_lineIdle rfl rfl rfl hi
    · obtain ⟨-, ⟨hq, rfl⟩ | ⟨hq, rfl⟩ | ⟨hq, rfl⟩ | ⟨hq, rfl⟩ | ⟨hq, rfl⟩⟩ := stepIn_driver_cases hrst' hp h
      · exact State.tickTx_inv hP hs.advance hq
      · exact State.tickTrail_inv P hs.advance hq
      · exact State.tickSwitch_inv P hs.advance hq
      · exact State.tickListen_inv P _ hs.advance hq
      · exact State.tickCapture_inv P _ hs.advance hq

/-- Settles O3, by `stepIn_inv`: each part of a step keeps R29. -/
theorem stepKeepsInvariants : Obligations.StepKeepsInvariants := by
  refine ⟨fun s t hs h => ?_, fun P hP s t hs h => stepIn_inv hP hs h⟩
  rw [step_eq_stepIn] at h
  exact stepIn_inv build_legal hs h

end Sys2Proof.Machine
end

section
/-! PROOFS. What alone changes the phase, `owned`, the counters and CFG: the operations one by one, then the step. -/

namespace Sys2Proof.Machine

/-! ## What an operation writes (R28) -/

/-- Only TX with a valid frame and RX in Bidirectional mode start the driver (R85, R94, R106). -/
theorem execIn_phase {P : Config.Build} {i : Instr} {s t : State} (h : execIn P i s = .next t) :
    t.phase = .idle ∨ (∃ f, i = .tx f ∧ frameValid s.mode f = true ∧ t.phase = .tx) ∨
      (i = .rx ∧ s.mode = .bidirectional ∧ t.phase = .switch) := by
  obtain ⟨r, rfl⟩ | ⟨e, -, -, -, rfl⟩ | ⟨f, rfl, hv, rfl⟩ | ⟨rfl, hm, rfl⟩ | ⟨r, m, a, n, -, -, rfl⟩ | ⟨-, -, rfl⟩ |
    ⟨-, rfl⟩ := execIn_cases h
  case inr.inr.inl => exact .inr (.inl ⟨f, rfl, hv, rfl⟩)
  case inr.inr.inr.inl => exact .inr (.inr ⟨rfl, hm, rfl⟩)
  all_goals exact .inl rfl

/-- Only CLAIM writes `owned`, and sets it (R111). -/
theorem execIn_owned {P : Config.Build} {i : Instr} {s t : State} (h : execIn P i s = .next t) :
    t.owned = s.owned ∨ (i = .claim ∧ t.owned = true) := by
  obtain ⟨r, rfl⟩ | ⟨e, -, -, -, rfl⟩ | ⟨f, -, -, rfl⟩ | ⟨-, -, rfl⟩ | ⟨r, m, a, n, -, -, rfl⟩ | ⟨rfl, -, rfl⟩ |
    ⟨-, rfl⟩ := execIn_cases h
  case inr.inr.inr.inr.inr.inl => exact .inr ⟨rfl, rfl⟩
  all_goals exact .inl rfl

/-- Only REINIT writes the validator's counters and the fault at acceptance (R112). -/
theorem execIn_validator {P : Config.Build} {i : Instr} {s t : State} (h : execIn P i s = .next t) :
    SameValidator s t ∨ i = .reinit := by
  obtain ⟨r, rfl⟩ | ⟨e, -, -, -, rfl⟩ | ⟨f, -, -, rfl⟩ | ⟨-, -, rfl⟩ | ⟨r, m, a, n, -, -, rfl⟩ | ⟨-, -, rfl⟩ |
    ⟨rfl, -⟩ := execIn_cases h
  case inr.inr.inr.inr.inr.inr => exact .inr rfl
  all_goals exact .inl ⟨rfl, rfl, rfl⟩

/-- Only a CONFIG that passes its check writes CFG, all fields at once (R109). -/
theorem execIn_config_fields {P : Config.Build} {i : Instr} {s t : State} (h : execIn P i s = .next t) :
    SameConfig s t ∨ (i = .config t.rate t.mode t.edtAdv t.thresh ∧ configLegal P t.rate t.mode = true) := by
  obtain ⟨r, rfl⟩ | ⟨e, -, -, -, rfl⟩ | ⟨f, -, -, rfl⟩ | ⟨-, -, rfl⟩ | ⟨r, m, a, n, rfl, hok, rfl⟩ | ⟨-, -, rfl⟩ |
    ⟨-, rfl⟩ := execIn_cases h
  case inr.inr.inr.inr.inl => exact .inr ⟨rfl, hok⟩
  all_goals exact .inl ⟨rfl, rfl, rfl, rfl⟩

/-! ## What a tick writes -/

theorem State.tickTx_phase (P : Config.Build) {s : State} (hp : s.phase = .tx) :
    (s.tickTx P).phase = .tx ∨ ((s.tickTx P).phase = .trail ∧ P.tTrail ≠ 0) ∨
      ((s.tickTx P).phase = .idle ∧ P.tTrail = 0) := by
  rcases s.tickTx_cases P with ⟨-, h⟩ | ⟨-, -, h⟩ | ⟨-, -, hz, h⟩ | ⟨-, -, hz, h⟩ <;> rw [h]
  · exact .inl hp
  · exact .inl hp
  · exact .inr (.inl ⟨rfl, hz⟩)
  · exact .inr (.inr ⟨rfl, hz⟩)

theorem State.tickTrail_phase (P : Config.Build) {s : State} (hp : s.phase = .trail) :
    (s.tickTrail P).phase = .trail ∨ (s.tickTrail P).phase = .idle := by
  rcases s.tickTrail_cases P with ⟨-, h⟩ | ⟨-, h⟩ <;> rw [h]
  · exact .inl hp
  · exact .inr rfl

theorem State.tickSwitch_phase (P : Config.Build) {s : State} (hp : s.phase = .switch) :
    (s.tickSwitch P).phase = .switch ∨ (s.tickSwitch P).phase = .listen := by
  rcases s.tickSwitch_cases P with ⟨-, h⟩ | ⟨-, h⟩ <;> rw [h]
  · exact .inl hp
  · exact .inr rfl

theorem State.finishRx_phase (s : State) (o : RxOutcome) : (s.finishRx o).phase = .idle := by
  cases o <;> rfl

theorem State.tickListen_phase (P : Config.Build) {s : State} (l : Level) (hp : s.phase = .listen) :
    (s.tickListen P l).phase = .listen ∨ (s.tickListen P l).phase = .capture ∨ (s.tickListen P l).phase = .idle := by
  rcases s.tickListen_cases P l with ⟨-, h⟩ | ⟨-, -, h⟩ | ⟨-, -, h⟩ <;> rw [h]
  · exact .inr (.inl rfl)
  · exact .inl hp
  · exact .inr (.inr (State.finishRx_phase _ _))

theorem State.tickCapture_phase (P : Config.Build) {s : State} (l : Level) (hp : s.phase = .capture) :
    (s.tickCapture P l).phase = .capture ∨ (s.tickCapture P l).phase = .idle := by
  rcases s.tickCapture_cases P l with ⟨-, h⟩ | ⟨-, h⟩ <;> rw [h]
  · exact .inl hp
  · exact .inr (State.finishRx_phase _ _)

/-- The tick of CAPTURE writes the counters and the fault only when it ends RX (R103 to R105). -/
theorem State.tickCapture_validator (P : Config.Build) (s : State) (l : Level) :
    SameValidator s (s.tickCapture P l) ∨ (s.tickCapture P l).phase = .idle := by
  rcases s.tickCapture_cases P l with ⟨-, h⟩ | ⟨-, h⟩ <;> rw [h]
  · exact .inl ⟨rfl, rfl, rfl⟩
  · exact .inr (State.finishRx_phase _ _)

/-! ## What a step writes -/

/-- What a step writes that neither is a reset nor accepts an operation: CFG and `owned` stay, the validator too unless a
capture ends, and the driver is not started. -/
structure QuietEffect (s t : State) : Prop where
  config    : SameConfig s t
  owned     : t.owned = s.owned
  validator : SameValidator s t ∨ (s.phase = .capture ∧ t.phase = .idle)
  phase     : s.phase = .idle → t.phase = .idle

theorem quietEffect_of_transmit {s t : State} (hp : s.phase ≠ .idle) (e : TransmitEffect s.advance t) :
    QuietEffect s t :=
  ⟨e.config.of_advance, e.owned, .inl e.validator.of_advance, fun h => absurd h hp⟩

theorem quietEffect_of_receive {s t : State} (hp : s.phase ≠ .idle) (e : ReceiveEffect s.advance t)
    (hv : SameValidator s t ∨ (s.phase = .capture ∧ t.phase = .idle)) : QuietEffect s t :=
  ⟨e.config.of_advance, e.owned, hv, fun h => absurd h hp⟩

/-- A step is a reset, or accepts an operation, or writes none of this but at the end of a capture. -/
theorem stepIn_writes {P : Config.Build} {s t : State} (h : stepIn P s = .next t) :
    s.pins.rst = true ∨ (s.pins.rst = false ∧ ∃ i, s.Accepts i ∧ execIn P i s.accepted = .next t) ∨
      (s.pins.rst = false ∧ QuietEffect s t) := by
  by_cases hrst : s.pins.rst = true
  · exact .inl hrst
  · have hrst' : s.pins.rst = false := by simpa using hrst
    by_cases hp : s.phase = .idle
    · obtain rfl | rfl | hi := stepIn_port_cases hrst' hp h
      · exact .inr (.inr ⟨hrst', ⟨rfl, rfl, rfl, rfl⟩, rfl, .inl ⟨rfl, rfl, rfl⟩, fun _ => hp⟩)
      · exact .inr (.inr ⟨hrst', ⟨rfl, rfl, rfl, rfl⟩, rfl, .inl ⟨rfl, rfl, rfl⟩, fun _ => rfl⟩)
      · exact .inr (.inl ⟨hrst', hi⟩)
    · refine .inr (.inr ⟨hrst', ?_⟩)
      obtain ⟨-, ⟨-, rfl⟩ | ⟨-, rfl⟩ | ⟨hq, rfl⟩ | ⟨hq, rfl⟩ | ⟨hq, rfl⟩⟩ := stepIn_driver_cases hrst' hp h
      · exact quietEffect_of_transmit hp (s.advance.tickTx_effect P)
      · exact quietEffect_of_transmit hp (s.advance.tickTrail_effect P)
      · refine quietEffect_of_receive hp (s.advance.tickSwitch_effect P) (.inl ?_)
        exact (s.advance.tickSwitch_sameValidator P).of_advance
      · refine quietEffect_of_receive hp (s.advance.tickListen_effect P _) (.inl ?_)
        exact (s.advance.tickListen_sameValidator P _).of_advance
      · exact quietEffect_of_receive hp (s.advance.tickCapture_effect P _)
          ((s.advance.tickCapture_validator P _).imp SameValidator.of_advance fun hend => ⟨hq, hend⟩)

/-! ## The statements -/

/-- Settles O53: acceptance starts TX or SWITCH, and each tick has its own way out of its phase. -/
theorem phaseTransitions : Obligations.PhaseTransitions := by
  intro s t hrst h
  rw [step_eq_stepIn] at h
  by_cases hp : s.phase = .idle
  · rw [hp]
    obtain rfl | rfl | ⟨i, -, hi⟩ := stepIn_port_cases hrst hp h
    · exact .inl hp
    · exact .inl rfl
    · obtain ht | ⟨f, -, -, ht⟩ | ⟨-, -, ht⟩ := execIn_phase hi
      · exact .inl ht
      · exact .inr (.inl ht)
      · exact .inr (.inr ht)
  · obtain ⟨-, ⟨hq, rfl⟩ | ⟨hq, rfl⟩ | ⟨hq, rfl⟩ | ⟨hq, rfl⟩ | ⟨hq, rfl⟩⟩ := stepIn_driver_cases hrst hp h <;>
      simp only [hq]
    · exact State.tickTx_phase (s := s.advance) Config.build hq
    · exact State.tickTrail_phase (s := s.advance) Config.build hq
    · exact State.tickSwitch_phase (s := s.advance) Config.build hq
    · exact State.tickListen_phase (s := s.advance) Config.build s.pins.lineIn hq
    · exact State.tickCapture_phase (s := s.advance) Config.build s.pins.lineIn hq

/-- Settles O54: a step that leaves IDLE accepts an operation, which is TX or RX by `execIn_phase`. -/
theorem onlyTxAndRxLeaveIdle : Obligations.OnlyTxAndRxLeaveIdle := by
  intro s t hp h ht
  rw [step_eq_stepIn] at h
  obtain hrst | ⟨-, i, hacc, hi⟩ | ⟨-, e⟩ := stepIn_writes h
  · rw [stepIn_reset hrst] at h
    cases h
    exact absurd rfl ht
  · obtain hidle | ⟨f, rfl, hv, -⟩ | ⟨rfl, hm, -⟩ := execIn_phase hi
    · exact absurd hidle ht
    · exact .inl ⟨f, hacc, hv⟩
    · exact .inr ⟨hacc, hm⟩
  · exact absurd (e.phase hp) ht

/-- Settles O56: reset clears `owned`, CLAIM sets it (`execIn_owned`), and no other step writes it. -/
theorem ownedChangesOnlyByClaimOrReset : Obligations.OwnedChangesOnlyByClaimOrReset := by
  intro s t h
  rw [step_eq_stepIn] at h
  have kept (ho : t.owned = s.owned) :
      (s.owned = false → t.owned = true → s.Accepts .claim) ∧ (s.owned = true → t.owned = false → s.pins.rst = true) :=
    ⟨fun hs ht => by simp [ho, hs] at ht, fun hs ht => by simp [ho, hs] at ht⟩
  obtain hrst | ⟨-, i, hacc, hi⟩ | ⟨-, e⟩ := stepIn_writes h
  · rw [stepIn_reset hrst] at h
    cases h
    exact ⟨fun _ hset => by simp [State.reset] at hset, fun _ _ => hrst⟩
  · obtain ho | ⟨rfl, hset⟩ := execIn_owned hi
    · exact kept ho
    · exact ⟨fun _ _ => hacc, fun _ hclear => by simp [hset] at hclear⟩
  · exact kept e.owned

/-- Settles O57: at acceptance only REINIT writes the counters, and of the other steps only the end of a capture. -/
theorem countersChangeOnlyByRxOrReinit : Obligations.CountersChangeOnlyByRxOrReinit := by
  intro s t h hne
  rw [step_eq_stepIn] at h
  have hchanged : ¬SameValidator s t := fun hsame => by simp [hsame.crcFail, hsame.discard] at hne
  obtain hrst | ⟨-, i, hacc, hi⟩ | ⟨-, e⟩ := stepIn_writes h
  · exact .inl hrst
  · obtain hsame | rfl := execIn_validator hi
    · exact absurd ⟨hsame.crcFail, hsame.discard, hsame.fault⟩ hchanged
    · exact .inr (.inl hacc)
  · obtain hsame | hend := e.validator
    · exact absurd hsame hchanged
    · exact .inr (.inr hend)

theorem SameConfig.cfgWord_eq {s t : State} (h : SameConfig s t) : t.cfgWord = s.cfgWord := by
  simp [State.cfgWord, h.thresh, h.edtAdv, h.mode, h.rate]

/-- Settles O58: a step without reset keeps the fields of CFG unless it accepts the CONFIG of the new ones
(`execIn_config_fields`), which has passed its check. -/
theorem cfgChangesOnlyByConfig : Obligations.CfgChangesOnlyByConfig := by
  intro s t hrst h hne
  rw [step_eq_stepIn] at h
  rw [State.regRead_cfg, State.regRead_cfg] at hne
  obtain hr | ⟨-, i, hacc, hi⟩ | ⟨-, e⟩ := stepIn_writes h
  · simp [hrst] at hr
  · obtain hsame | ⟨rfl, hok⟩ := execIn_config_fields hi
    · exact absurd (SameConfig.cfgWord_eq (s := s) ⟨hsame.rate, hsame.mode, hsame.edtAdv, hsame.thresh⟩) hne
    · exact ⟨hacc, (configLegal_iff build_legal _ _).mp hok⟩
  · exact absurd e.config.cfgWord_eq hne

end Sys2Proof.Machine
end

section
/-! PROOFS. The registers field by field (R18 to R22) and the codes in them (R23, R115). -/

namespace Sys2Proof.Machine

/-! ## STATUS (R19) -/

/-- The flags of STATUS, each in its bit. -/
theorem State.statusWord_flags (s : State) :
    s.statusWord.getLsbD 0 = s.busy ∧ s.statusWord.getLsbD 1 = s.done ∧ s.statusWord.getLsbD 2 = s.err ∧
      s.statusWord.getLsbD 3 = false ∧ s.statusWord.getLsbD 8 = s.fault ∧ s.statusWord.getLsbD 9 = s.owned := by
  unfold State.statusWord
  simp only [BitVec.getLsbD_append]
  simp

/-- The fields of STATUS: what stands to the right of a field is passed over. -/
theorem State.statusWord_fields (s : State) :
    s.statusWord.extractLsb' 4 4 = s.errcode.code ∧ s.statusWord.extractLsb' 10 3 = s.phase.code ∧
      s.statusWord.extractLsb' 13 19 = 0#19 := by
  simp only [State.statusWord, BitVec.extractLsb'_append_eq_of_le, Nat.reduceLeDiff, Nat.reduceSub,
    BitVec.extractLsb'_append_eq_right, BitVec.extractLsb'_eq_self, and_self]

/-! ## CFG (R20) -/

theorem State.cfgWord_flags (s : State) :
    s.cfgWord.getLsbD 2 = s.mode.bit ∧ s.cfgWord.getLsbD 3 = s.edtAdv := by
  unfold State.cfgWord
  simp only [BitVec.getLsbD_append]
  simp

theorem State.cfgWord_fields (s : State) :
    s.cfgWord.extractLsb' 0 2 = s.rate.code ∧ s.cfgWord.extractLsb' 4 4 = 0#4 ∧ s.cfgWord.extractLsb' 8 8 = s.thresh ∧
      s.cfgWord.extractLsb' 16 16 = 0#16 := by
  simp only [State.cfgWord, BitVec.extractLsb'_append_eq_of_le, Nat.reduceLeDiff, Nat.reduceSub,
    BitVec.extractLsb'_append_eq_right, BitVec.extractLsb'_eq_self, and_self]

/-! ## The counters (R21, R22) and the unmapped indices (R18) -/

theorem State.crcFailWord_toNat (s : State) : s.crcFailWord.toNat = s.crcFail.toNat :=
  (BitVec.toNat_append _ _).trans (by simp)

theorem State.discardWord_toNat (s : State) : s.discardWord.toNat = s.discard.toNat :=
  (BitVec.toNat_append _ _).trans (by simp)

theorem State.regRead_unmapped (s : State) (i : BitVec 3) (h : 5 ≤ i.toNat) : s.regRead i = 0#32 := by
  unfold State.regRead
  split
  case h_6 => rfl
  all_goals omega

/-- Settles O50: each register from the lemmas about its word. -/
theorem registerLayouts : Obligations.RegisterLayouts := by
  intro s
  rw [s.regRead_status, s.regRead_cfg, s.regRead_crcFail, s.regRead_discard]
  obtain ⟨busy, done, err, bit3, fault, owned⟩ := s.statusWord_flags
  obtain ⟨errcode, phase, bits13⟩ := s.statusWord_fields
  obtain ⟨mode, edtAdv⟩ := s.cfgWord_flags
  obtain ⟨rate, bits4, thresh, bits16⟩ := s.cfgWord_fields
  exact ⟨⟨busy, done, err, bit3, errcode, fault, owned, phase, bits13⟩, s.regRead_result,
    ⟨rate, mode, edtAdv, bits4, thresh, bits16⟩, s.crcFailWord_toNat, s.discardWord_toNat, s.regRead_unmapped⟩

/-- Settles O51: the two lists of codes, evaluated. -/
theorem errorAndPhaseCodes : Obligations.ErrorAndPhaseCodes := by
  unfold Obligations.ErrorAndPhaseCodes
  decide

end Sys2Proof.Machine
end

section
/-! PROOFS. The time an operation can still take (R136, R148): every tick of the driver keeps its working state in bounds and
brings the end nearer, so that a busy block is busy no longer than `busyBound`. -/

namespace Sys2Proof.Machine

/-! ## The driver's invariant and the time left, phase by phase -/

section
variable {P : Config.Build} {s : State}

theorem State.driverInv_of_tx (hp : s.phase = .tx) (hc : s.cnt < tbit P s.rate)
    (hf : frameValid s.mode s.shreg = true) : s.DriverInv P := by
  constructor <;> simp [hp, hc, hf, Phase.released]

theorem State.driverInv_of_trail (hp : s.phase = .trail) (hc : s.cnt < P.tTrail)
    (hf : frameValid s.mode s.shreg = true) : s.DriverInv P := by
  constructor <;> simp [hp, hc, hf, Phase.released]

theorem State.driverInv_of_switch (hp : s.phase = .switch) (hc : s.cnt < P.tSwitch) (hm : s.mode = .bidirectional) :
    s.DriverInv P := by
  constructor <;> simp [hp, hc, hm]

theorem State.driverInv_of_listen (hp : s.phase = .listen) (hc : s.cnt < P.tRxTimeout) (hm : s.mode = .bidirectional) :
    s.DriverInv P := by
  constructor <;> simp [hp, hc, hm]

theorem State.driverInv_of_capture (hp : s.phase = .capture) (hc : s.cnt < window P s.rate)
    (hm : s.mode = .bidirectional) (hs : s.samples.length = s.cnt ∧ s.samples.head? = some false) : s.DriverInv P := by
  constructor <;> simp [hp, hc, hm, hs]

theorem State.ticksLeft_idle (hp : s.phase = .idle) : s.ticksLeft P = 0 := by
  simp [State.ticksLeft, hp]

theorem State.ticksLeft_tx (hp : s.phase = .tx) :
    s.ticksLeft P = s.bitIdx.toNat * tbit P s.rate + (tbit P s.rate - s.cnt) + P.tTrail := by
  simp [State.ticksLeft, hp]

theorem State.ticksLeft_trail (hp : s.phase = .trail) : s.ticksLeft P = P.tTrail - s.cnt := by
  simp [State.ticksLeft, hp]

theorem State.ticksLeft_switch (hp : s.phase = .switch) :
    s.ticksLeft P = (P.tSwitch - s.cnt) + P.tRxTimeout + window P s.rate - 1 := by
  simp [State.ticksLeft, hp]

theorem State.ticksLeft_listen (hp : s.phase = .listen) :
    s.ticksLeft P = (P.tRxTimeout - s.cnt) + window P s.rate - 1 := by
  simp [State.ticksLeft, hp]

theorem State.ticksLeft_capture (hp : s.phase = .capture) : s.ticksLeft P = window P s.rate - s.cnt := by
  simp [State.ticksLeft, hp]

/-- The time left is at most the longest busy time of the rate (R136). -/
theorem State.ticksLeft_le_busyBound (hP : P.Legal) (s : State) : s.ticksLeft P ≤ busyBound P s.rate := by
  have htime := hP.tRxTimeout
  unfold busyBound txTicks
  cases hp : s.phase with
  | idle => rw [State.ticksLeft_idle hp]; omega
  | tx =>
    rw [State.ticksLeft_tx hp]
    have : s.bitIdx.toNat * tbit P s.rate ≤ 15 * tbit P s.rate := Nat.mul_le_mul_right _ (by omega)
    omega
  | trail => rw [State.ticksLeft_trail hp]; omega
  | switch => rw [State.ticksLeft_switch hp]; omega
  | listen => rw [State.ticksLeft_listen hp]; omega
  | capture => rw [State.ticksLeft_capture hp]; omega

end

/-! ## The ticks (R86, R97) -/

/-- From `s` to `t` the driver's working state stays in bounds and the end comes nearer. -/
structure Progress (P : Config.Build) (s t : State) : Prop where
  driverInv : t.DriverInv P
  nearer    : t.ticksLeft P < s.ticksLeft P

theorem progress_of_idle {P : Config.Build} {s t : State} (hp : t.phase = .idle) (hs : 0 < s.ticksLeft P) :
    Progress P s t :=
  ⟨State.driverInv_of_idle P hp, by rwa [State.ticksLeft_idle hp]⟩

theorem State.tickTx_progress {P : Config.Build} {s : State} (h : s.DriverInv P) (hp : s.phase = .tx) :
    Progress P s (s.tickTx P) := by
  have hcnt := h.tx_count hp
  have hframe := h.tx_frame (.inl hp)
  have hleft := State.ticksLeft_tx (P := P) hp
  rcases s.tickTx_cases P with ⟨hc, ht⟩ | ⟨hc, hb, ht⟩ | ⟨hc, hb, hz, ht⟩ | ⟨hc, hb, hz, ht⟩ <;> rw [ht]
  · refine ⟨State.driverInv_of_tx hp ?_ hframe, lt_of_eq_of_lt (State.ticksLeft_tx hp) ?_⟩
    · simp only [State.drive_rate]
      omega
    · simp only [hleft, State.drive_rate, State.drive_bitIdx]
      omega
  · have hbit : s.bitIdx.toNat = (s.bitIdx - 1#4).toNat + 1 := by bv_omega
    refine ⟨State.driverInv_of_tx hp ?_ hframe, lt_of_eq_of_lt (State.ticksLeft_tx hp) ?_⟩
    · simp only [State.drive_rate]
      omega
    · simp only [hleft, State.drive_rate, hbit, Nat.succ_mul]
      omega
  · refine ⟨State.driverInv_of_trail rfl (Nat.pos_of_ne_zero hz) hframe,
      lt_of_eq_of_lt (State.ticksLeft_trail rfl) ?_⟩
    simp only [hleft]
    omega
  · exact progress_of_idle rfl (by omega)

theorem State.tickTrail_progress {P : Config.Build} {s : State} (h : s.DriverInv P) (hp : s.phase = .trail) :
    Progress P s (s.tickTrail P) := by
  have hcnt := h.trail_count hp
  have hleft := State.ticksLeft_trail (P := P) hp
  rcases s.tickTrail_cases P with ⟨hc, ht⟩ | ⟨hc, ht⟩ <;> rw [ht]
  · refine ⟨State.driverInv_of_trail hp ?_ (h.tx_frame (.inr hp)), lt_of_eq_of_lt (State.ticksLeft_trail hp) ?_⟩
    · dsimp only
      omega
    · simp only [hleft]
      omega
  · exact progress_of_idle rfl (by omega)

theorem State.tickSwitch_progress {P : Config.Build} (hP : P.Legal) {s : State} (h : s.DriverInv P)
    (hp : s.phase = .switch) : Progress P s (s.tickSwitch P) := by
  have hcnt := h.switch_count hp
  have hmode := h.rx_mode (.inl hp)
  have hleft := State.ticksLeft_switch (P := P) hp
  have htime := hP.tRxTimeout
  rcases s.tickSwitch_cases P with ⟨hc, ht⟩ | ⟨hc, ht⟩ <;> rw [ht]
  · refine ⟨State.driverInv_of_switch hp ?_ hmode, lt_of_eq_of_lt (State.ticksLeft_switch hp) ?_⟩
    · dsimp only
      omega
    · simp only [hleft]
      omega
  · refine ⟨State.driverInv_of_listen rfl htime hmode, lt_of_eq_of_lt (State.ticksLeft_listen rfl) ?_⟩
    simp only [hleft]
    omega

theorem State.tickListen_progress {P : Config.Build} (hP : P.Legal) {s : State} (l : Level) (h : s.DriverInv P)
    (hp : s.phase = .listen) : Progress P s (s.tickListen P l) := by
  have hcnt := h.listen_count hp
  have hmode := h.rx_mode (.inr (.inl hp))
  have hleft := State.ticksLeft_listen (P := P) hp
  have hwin := one_lt_window hP s.rate
  rcases s.tickListen_cases P l with ⟨-, ht⟩ | ⟨-, hc, ht⟩ | ⟨-, hc, ht⟩ <;> rw [ht]
  · refine ⟨State.driverInv_of_capture rfl hwin hmode ⟨rfl, rfl⟩, lt_of_eq_of_lt (State.ticksLeft_capture rfl) ?_⟩
    simp only [hleft]
    omega
  · refine ⟨State.driverInv_of_listen hp ?_ hmode, lt_of_eq_of_lt (State.ticksLeft_listen hp) ?_⟩
    · dsimp only
      omega
    · simp only [hleft]
      omega
  · exact progress_of_idle (State.finishRx_phase _ _) (by omega)

theorem State.tickCapture_progress {P : Config.Build} {s : State} (l : Level) (h : s.DriverInv P)
    (hp : s.phase = .capture) : Progress P s (s.tickCapture P l) := by
  have hcnt := h.capture_count hp
  have hmode := h.rx_mode (.inr (.inr hp))
  have hleft := State.ticksLeft_capture (P := P) hp
  obtain ⟨hlen, hhead⟩ := h.samples hp
  rcases s.tickCapture_cases P l with ⟨hc, ht⟩ | ⟨hc, ht⟩ <;> rw [ht]
  · refine ⟨State.driverInv_of_capture hp ?_ hmode ⟨by simp [hlen], by simp [hhead]⟩,
      lt_of_eq_of_lt (State.ticksLeft_capture hp) ?_⟩
    · dsimp only
      omega
    · simp only [hleft]
      omega
  · exact progress_of_idle (State.finishRx_phase _ _) (by omega)

/-! ## The step and the run -/

theorem State.DriverInv.advance {P : Config.Build} {s : State} (h : s.DriverInv P) : s.advance.DriverInv P :=
  ⟨h.tx_count, h.trail_count, h.switch_count, h.listen_count, h.capture_count, h.tx_frame, h.rx_mode, h.samples⟩

theorem Progress.of_advance {P : Config.Build} {s t : State} (h : Progress P s.advance t) : Progress P s t :=
  ⟨h.driverInv, h.nearer⟩

theorem State.ticksLeft_pos {P : Config.Build} (hP : P.Legal) {s : State} (h : s.DriverInv P) (hp : s.phase ≠ .idle) :
    0 < s.ticksLeft P := by
  have hwin := one_lt_window hP s.rate
  cases hq : s.phase with
  | idle => exact absurd hq hp
  | tx => have := h.tx_count hq; rw [State.ticksLeft_tx hq]; omega
  | trail => have := h.trail_count hq; rw [State.ticksLeft_trail hq]; omega
  | switch => rw [State.ticksLeft_switch hq]; omega
  | listen => have := h.listen_count hq; rw [State.ticksLeft_listen hq]; omega
  | capture => have := h.capture_count hq; rw [State.ticksLeft_capture hq]; omega

/-- Every step of a busy block makes progress, a reset too. -/
theorem stepIn_progress {P : Config.Build} (hP : P.Legal) {s t : State} (h : s.DriverInv P) (hp : s.phase ≠ .idle)
    (hstep : stepIn P s = .next t) : Progress P s t := by
  by_cases hrst : s.pins.rst = true
  · rw [stepIn_reset hrst] at hstep
    cases hstep
    exact progress_of_idle rfl (State.ticksLeft_pos hP h hp)
  · obtain ⟨-, ⟨hq, rfl⟩ | ⟨hq, rfl⟩ | ⟨hq, rfl⟩ | ⟨hq, rfl⟩ | ⟨hq, rfl⟩⟩ :=
      stepIn_driver_cases (by simpa using hrst) hp hstep
    · exact (State.tickTx_progress h.advance hq).of_advance
    · exact (State.tickTrail_progress h.advance hq).of_advance
    · exact (State.tickSwitch_progress hP h.advance hq).of_advance
    · exact (State.tickListen_progress hP _ h.advance hq).of_advance
    · exact (State.tickCapture_progress _ h.advance hq).of_advance

/-- Within the time left the block is no longer busy, by induction on that time. -/
theorem exists_not_busy_within_ticksLeft {P : Config.Build} (hP : P.Legal) (s : State) (hs : s.Inv)
    (hd : s.DriverInv P) : ∃ k, k ≤ s.ticksLeft P ∧ ∃ t, runTicks P k s = .next t ∧ t.busy = false := by
  induction hn : s.ticksLeft P using Nat.strong_induction_on generalizing s with
  | _ n ih =>
    by_cases hb : s.busy = true
    · obtain ⟨u, hu⟩ := stepIn_total P hs.busy_phase
      obtain ⟨hdu, hlt⟩ := stepIn_progress hP hd (hs.busy_phase.mp hb) hu
      obtain ⟨k, hk, t, hrun, ht⟩ := ih _ (hn ▸ hlt) u (stepIn_inv hP hs hu) hdu rfl
      exact ⟨k + 1, by omega, t, by simpa only [runTicks, hu] using hrun, ht⟩
    · exact ⟨0, Nat.zero_le _, s, rfl, by simpa using hb⟩

/-- Settles O6: the block is idle within the time left, which `busyBound` bounds. -/
theorem busyEndsWithinBound : Obligations.BusyEndsWithinBound := by
  intro P hP s hs hd
  obtain ⟨k, hk, hend⟩ := exists_not_busy_within_ticksLeft hP s hs hd
  exact ⟨k, hk.trans (State.ticksLeft_le_busyBound hP s), hend⟩

end Sys2Proof.Machine
end

section
/-! PROOFS. The ports while the block is busy: the command word held in its place and the registers that stay (R34, R38, R39),
and the input pins that a step does not look at (R33, R97, R129). -/

namespace Sys2Proof.Machine

/-! ## A step of a busy block (R34, R39) -/

theorem Phase.transmitting_or_released {p : Phase} (h : p ≠ .idle) : (p = .tx ∨ p = .trail) ∨ p.released := by
  cases p <;> simp [Phase.released] at h ⊢

theorem stepIn_busy_idle {P : Config.Build} {s : State} (hrst : s.pins.rst = false) (hb : s.busy = true)
    (hp : s.phase = .idle) : stepIn P s = .fault .busyDisagreesWithPhase := by
  simp [stepIn, clockPeriod, hrst, hb, hp, State.inIdle]

/-- Without reset, a step of a busy block is a transmit or a receive tick, beside the tick of the inputs. -/
theorem stepIn_busy_effect {P : Config.Build} {s t : State} (hrst : s.pins.rst = false) (hb : s.busy = true)
    (h : stepIn P s = .next t) : TransmitEffect s.advance t ∨ ReceiveEffect s.advance t := by
  have hp : s.phase ≠ .idle := fun hidle => by simp [stepIn_busy_idle hrst hb hidle] at h
  obtain hsend | hreceive := Phase.transmitting_or_released hp
  · exact .inl (stepIn_transmitEffect hrst hsend h).2
  · exact .inr (stepIn_receiveEffect hrst hreceive h)

/-! ## The command port while busy (R34, R38) -/

/-- A busy block accepts nothing, not even at a reset edge. -/
theorem stepIn_busy_host {P : Config.Build} {s t : State} (hb : s.busy = true) (h : stepIn P s = .next t) :
    t.host = s.hostLater := by
  by_cases hrst : s.pins.rst = true
  · rw [stepIn_reset hrst] at h
    cases h
    rfl
  · obtain e | e := stepIn_busy_effect (by simpa using hrst) hb h
    · exact e.inputs.host
    · exact e.inputs.host

theorem State.hostLater_of_submit {s : State} {w : Word} {h : List HostAct} (hs : s.host = .submit w :: h) :
    s.hostLater = .submit w :: h := by
  simp [State.hostLater, hs]

/-- Settles O8: a busy block accepts nothing (`stepIn_busy_host`), and a word not accepted is held. -/
theorem wordHeldWhileBusy : Obligations.WordHeldWhileBusy := by
  intro s t w h hs hb hstep
  rw [step_eq_stepIn] at hstep
  rw [stepIn_busy_host hb hstep, State.hostLater_of_submit hs]

/-! ## The registers while busy (R39) -/

/-- Every field that a register shows is unchanged, but the phase. -/
structure SameRegisters (s t : State) : Prop where
  config    : SameConfig s t
  validator : SameValidator s t
  status    : SameStatus s t
  busy      : t.busy = s.busy
  owned     : t.owned = s.owned
  result    : t.result = s.result

/-- A tick that leaves the block busy has not completed, so it is one that goes on. -/
theorem stepIn_busy_sameRegisters {P : Config.Build} {s t : State} (hrst : s.pins.rst = false) (hb : s.busy = true)
    (h : stepIn P s = .next t) (htb : t.busy = true) : SameRegisters s t := by
  obtain e | e := stepIn_busy_effect hrst hb h
  · obtain ⟨hbusy, hst, hres⟩ | hdone := e.goesOn_or_completes
    · exact ⟨e.config.of_advance, e.validator.of_advance, hst.of_advance, hbusy, e.owned, hres⟩
    · simp [hdone.busy] at htb
  · obtain ⟨hbusy, hst, hv, hres, -⟩ | ⟨hdone, -⟩ := e.goesOn_or_ends
    · exact ⟨e.config.of_advance, hv.of_advance, hst.of_advance, hbusy, e.owned, hres⟩
    · simp [hdone] at htb

theorem SameRegisters.regRead_eq {s t : State} (h : SameRegisters s t) {i : BitVec 3} (hi : i ≠ 0#3) :
    t.regRead i = s.regRead i := by
  unfold State.regRead
  split
  case h_1 hz => exact absurd (BitVec.eq_of_toNat_eq hz) hi
  case h_2 => exact h.result
  case h_3 => exact h.config.cfgWord_eq
  case h_4 => rw [State.crcFailWord, h.validator.crcFail, State.crcFailWord]
  case h_5 => rw [State.discardWord, h.validator.discard, State.discardWord]
  case h_6 => rfl

/-- The bits of STATUS below PHASE are those of fields that are unchanged, and the bits above it are 0 (R19). -/
theorem SameRegisters.statusWord_getLsbD {s t : State} (h : SameRegisters s t) {b : Nat} (hb : ¬(10 ≤ b ∧ b ≤ 12)) :
    t.statusWord.getLsbD b = s.statusWord.getLsbD b := by
  simp only [State.statusWord, h.busy, h.status.done, h.status.err, h.status.errcode, h.validator.fault, h.owned,
    BitVec.getLsbD_append]
  obtain hbelow | habove : b < 10 ∨ 13 ≤ b := by omega
  · grind
  · grind

/-- Settles O52: a step that leaves a busy block busy writes no field of a register but the phase
(`stepIn_busy_sameRegisters`). -/
theorem registersStableWhileBusy : Obligations.RegistersStableWhileBusy := by
  intro s t hb hrst h htb
  rw [step_eq_stepIn] at h
  have hsame := stepIn_busy_sameRegisters hrst hb h htb
  exact ⟨fun _ hi => hsame.regRead_eq hi, fun _ hbit => hsame.statusWord_getLsbD hbit⟩

/-! ## The input pins of a tick (R25, R33, R97) -/

/-- `s` with other input pins in the coming tick. -/
def State.withPins (s : State) (q : TickIn) : State := { s with env := q :: s.env.tail }

section
variable (s : State) (q : TickIn)

@[simp] theorem State.withPins_pins : (s.withPins q).pins = q := rfl
@[simp] theorem State.withPins_busy : (s.withPins q).busy = s.busy := rfl
@[simp] theorem State.withPins_phase : (s.withPins q).phase = s.phase := rfl
@[simp] theorem State.withPins_inIdle : (s.withPins q).inIdle = s.inIdle := rfl
@[simp] theorem State.withPins_advance : (s.withPins q).advance = s.advance := rfl
@[simp] theorem portPeriod_withPins (run : Instr → State → Host.Outcome State Fault Refusal) :
    portPeriod run (s.withPins q) = portPeriod run s := rfl

end

theorem State.withPins_of_env_cons {s : State} {p : TickIn} {later : List TickIn} (h : s.env = p :: later)
    (q : TickIn) : s.withPins q = { s with env := q :: later } := by
  simp [State.withPins, h]

/-- A step depends on the pins of its tick only through the reset, and in LISTEN and CAPTURE through the line. -/
theorem stepIn_withPins {P : Config.Build} {s : State} {q : TickIn} (hrst : q.rst = s.pins.rst)
    (hline : s.phase = .listen ∨ s.phase = .capture → q.lineIn = s.pins.lineIn) :
    stepIn P (s.withPins q) = stepIn P s := by
  simp only [stepIn, clockPeriod, portPeriod_withPins, State.withPins_pins, State.withPins_busy,
    State.withPins_phase, State.withPins_inIdle, State.withPins_advance, hrst]
  cases hp : s.phase with
  | listen => simp only [hline (.inl hp)]
  | capture => simp only [hline (.inr hp)]
  | _ => rfl

/-- Settles O59: both clauses change only pins that a step does not look at (`stepIn_withPins`). -/
theorem lineInIgnoredElsewhere : Obligations.LineInIgnoredElsewhere := by
  refine ⟨fun s p later l he hlisten hcapture => ?_, fun s p later i he => ?_⟩ <;>
    rw [step_eq_stepIn, step_eq_stepIn, ← State.withPins_of_env_cons he]
  · refine stepIn_withPins (by rw [State.pins_cons he]) ?_
    rintro (hp | hp)
    · exact absurd hp hlisten
    · exact absurd hp hcapture
  · exact stepIn_withPins (by rw [State.pins_cons he]) fun _ => by rw [State.pins_cons he]

end Sys2Proof.Machine
end

section
/-! PROOFS. The encoding of command words: decoder and encoder are inverse to each other (R42 to R50, R53), and the decoder
and the table of R50 agree on every word. -/

namespace Sys2Proof

open Laws.OpcodeRow (spells_V spells_W spells_G spells_C spells_K)
open BitVec (extractLsb'_append_extractLsb'_eq_extractLsb')

/-! ## The decoder's two checks (R43) and the row's one (R50) -/

/-- R43's two checks: some operation has the opcode, and the reserved bits of its format are 0. -/
theorem decode_eq_ok_iff {w : Word} {i : Instr} :
    decode w = .ok i ↔ ∃ f, operationOf w = some (f, i) ∧ w &&& f.reserved = 0#32 := by
  unfold decode
  cases operationOf w with
  | none => simp
  | some p =>
    obtain ⟨f, j⟩ := p
    by_cases hr : w &&& f.reserved = 0#32
    · simp only [hr, ↓reduceIte, Except.ok.injEq, Option.some.injEq, Prod.mk.injEq]
      exact ⟨fun hji => ⟨f, ⟨rfl, hji⟩, hr⟩, fun ⟨_, ⟨_, hji⟩, _⟩ => hji⟩
    · simp only [hr, ↓reduceIte, reduceCtorEq, Option.some.injEq, Prod.mk.injEq, false_iff]
      rintro ⟨f', ⟨rfl, -⟩, hr'⟩
      exact hr hr'

/-- The mask of a row of R50: the opcode and the reserved bits of the row's format. -/
def Format.mask (f : Format) : Word := 0xF0000000#32 ||| f.reserved

theorem opcode_append_inj {a b : BitVec 4} {x y : BitVec 28} : a ++ x = b ++ y ↔ a = b ∧ x = y := by
  refine ⟨fun h => ⟨?_, ?_⟩, fun ⟨ha, hx⟩ => by rw [ha, hx]⟩
  · simpa only [BitVec.extractLsb'_append_eq_left] using congrArg (BitVec.extractLsb' 28 4) h
  · simpa only [BitVec.extractLsb'_append_eq_right] using congrArg (BitVec.extractLsb' 0 28) h

/-- R50's test of a word is R43's two checks in one. -/
theorem and_mask_eq_iff {w : Word} {f : Format} {op : BitVec 4} :
    w &&& f.mask = op ++ 0#28 ↔ opcodeOf w = op ∧ w &&& f.reserved = 0#32 := by
  obtain ⟨a, x, rfl⟩ : ∃ (a : BitVec 4) (x : BitVec 28), w = a ++ x :=
    ⟨w.extractLsb' 28 4, w.extractLsb' 0 28, (BitVec.extractLsb'_append_extractLsb' (w := 4) (len := 28)).symm⟩
  have hopcode : opcodeOf (a ++ x) = a := BitVec.extractLsb'_append_eq_left
  obtain ⟨y, hreserved, hmask⟩ : ∃ y : BitVec 28, f.reserved = 0#4 ++ y ∧ f.mask = BitVec.allOnes 4 ++ y :=
    ⟨f.reserved.extractLsb' 0 28, by cases f <;> decide, by cases f <;> decide⟩
  rw [hopcode, hmask, hreserved, BitVec.and_append, BitVec.and_append, opcode_append_inj, BitVec.and_allOnes,
    BitVec.and_zero, ← BitVec.zero_append_zero (v := 4) (w := 28), BitVec.append_right_inj]

/-! ## The fields of an encoded word (R44 to R49) -/

@[simp] theorem Rate.ofCode_code (r : Rate) : Rate.ofCode r.code = r := by cases r <;> rfl

@[simp] theorem Rate.code_ofCode (c : BitVec 2) : (Rate.ofCode c).code = c := by
  have h : ∀ c : BitVec 2, (Rate.ofCode c).code = c := by decide
  exact h c

@[simp] theorem Mode.ofBit_bit (m : Mode) : Mode.ofBit m.bit = m := by cases m <;> rfl

@[simp] theorem Mode.bit_ofBit (b : Bool) : (Mode.ofBit b).bit = b := by cases b <;> rfl

section
variable (op : BitVec 4) (x : BitVec 16) (t : Bool) (raw : Raw) (v : V12) (r : Rate) (m : Mode) (n : BitVec 8)

theorem spells_N : encodeN op &&& Format.n.mask = op ++ 0#28 := BitVec.and_allOnes

@[simp] theorem opcodeOf_encodeN : opcodeOf (encodeN op) = op := (and_mask_eq_iff.mp (spells_N op)).1
@[simp] theorem opcodeOf_encodeV : opcodeOf (encodeV op x t) = op := (and_mask_eq_iff (f := .v).mp (spells_V op x t)).1
@[simp] theorem opcodeOf_encodeW : opcodeOf (encodeW op x) = op := (and_mask_eq_iff (f := .w).mp (spells_W op x)).1
@[simp] theorem opcodeOf_encodeG : opcodeOf (encodeG op raw) = op := (and_mask_eq_iff (f := .g).mp (spells_G op raw)).1
@[simp] theorem opcodeOf_encodeC : opcodeOf (encodeC op v t) = op := (and_mask_eq_iff (f := .c).mp (spells_C op v t)).1
@[simp] theorem opcodeOf_encodeK : opcodeOf (encodeK op r m t n) = op :=
  (and_mask_eq_iff (f := .k).mp (spells_K op r m t n)).1

@[simp] theorem encodeV_value : low16 (encodeV op x t) = x := BitVec.extractLsb'_append_eq_right
@[simp] theorem encodeW_w16 : low16 (encodeW op x) = x := BitVec.extractLsb'_append_eq_right
@[simp] theorem encodeG_raw20 : (encodeG op raw).extractLsb' 0 20 = raw := BitVec.extractLsb'_append_eq_right
@[simp] theorem encodeC_v12 : (encodeC op v t).extractLsb' 0 12 = v := BitVec.extractLsb'_append_eq_right
@[simp] theorem encodeK_rate : (encodeK op r m t n).extractLsb' 0 2 = r.code := BitVec.extractLsb'_append_eq_right

@[simp] theorem encodeV_flag : (encodeV op x t)[16] = t := by
  rw [← BitVec.getLsbD_eq_getElem]
  simp only [encodeV, BitVec.getLsbD_append]
  simp

@[simp] theorem encodeC_inv : (encodeC op v t)[12] = t := by
  rw [← BitVec.getLsbD_eq_getElem]
  simp only [encodeC, BitVec.getLsbD_append]
  simp

@[simp] theorem encodeK_mode : (encodeK op r m t n)[2] = m.bit := by
  rw [← BitVec.getLsbD_eq_getElem]
  simp only [encodeK, BitVec.getLsbD_append]
  simp

@[simp] theorem encodeK_edtAdv : (encodeK op r m t n)[3] = t := by
  rw [← BitVec.getLsbD_eq_getElem]
  simp only [encodeK, BitVec.getLsbD_append]
  simp

@[simp] theorem encodeK_thresh : (encodeK op r m t n).extractLsb' 8 8 = n := by
  apply BitVec.eq_of_getLsbD_eq
  intro k hk
  simp only [encodeK, BitVec.getLsbD_extractLsb', BitVec.getLsbD_append]
  grind

end

/-- The opcode map takes the word of an operation to the operation, and the reserved bits of the word are 0. -/
theorem operationOf_encode (i : Instr) :
    ∃ f, operationOf (encode i) = some (f, i) ∧ encode i &&& f.reserved = 0#32 := by
  cases i with
  | crc4 v inv => exact ⟨.c, by simp [encode, operationOf], (and_mask_eq_iff.mp (spells_C _ v inv)).2⟩
  | encThrottle x t | encCommand x t =>
    exact ⟨.v, by simp [encode, operationOf], (and_mask_eq_iff.mp (spells_V _ x t)).2⟩
  | decFrame x | gcrEncode x | decTelemetry x | tx x | classify x =>
    exact ⟨.w, by simp [encode, operationOf], (and_mask_eq_iff.mp (spells_W _ x)).2⟩
  | gcrDecode raw => exact ⟨.g, by simp [encode, operationOf], (and_mask_eq_iff.mp (spells_G _ raw)).2⟩
  | config r m a n => exact ⟨.k, by simp [encode, operationOf], (and_mask_eq_iff.mp (spells_K _ r m a n)).2⟩
  | rx | claim | reinit => exact ⟨.n, by simp [encode, operationOf], (and_mask_eq_iff.mp (spells_N _)).2⟩

@[simp] theorem decode_encode (i : Instr) : decode (encode i) = .ok i := decode_eq_ok_iff.mpr (operationOf_encode i)

/-- Settles O11: the word of an operation has its opcode, its reserved bits 0 and its fields in their places
(`operationOf_encode`). -/
theorem decodeEncodeAgree : Obligations.DecodeEncodeAgree := fun i _ => decode_encode i

/-! ## A word is put together from its fields (R44 to R49) -/

/-- A field under a mask that selects nothing of the word is 0. -/
theorem extractLsb'_eq_zero_of_and {w m : Word} (h : w &&& m = 0#32) {start len : Nat}
    (hm : m.extractLsb' start len = BitVec.allOnes len) : w.extractLsb' start len = 0#len := by
  simpa only [BitVec.extractLsb'_and, hm, BitVec.and_allOnes, BitVec.extractLsb'_zero]
    using congrArg (BitVec.extractLsb' start len) h

/-- A one-bit field. -/
theorem ofBool_getLsbD (w : Word) (k : Nat) : BitVec.ofBool (w.getLsbD k) = w.extractLsb' k 1 := by
  apply BitVec.eq_of_getLsbD_eq
  intro i hi
  simp [show i = 0 by omega]

section
variable {w : Word} {op : BitVec 4} (hop : opcodeOf w = op)
include hop

theorem encodeN_fields (h : w &&& Format.n.reserved = 0#32) : encodeN op = w := by
  rw [encodeN, ← hop, opcodeOf, ← extractLsb'_eq_zero_of_and h (start := 0) (len := 28) rfl,
    extractLsb'_append_extractLsb'_eq_extractLsb', BitVec.extractLsb'_eq_self]
  rfl

theorem encodeV_fields (h : w &&& Format.v.reserved = 0#32) : encodeV op (low16 w) (w.getLsbD 16) = w := by
  rw [encodeV, ← hop, opcodeOf, low16, ofBool_getLsbD, ← extractLsb'_eq_zero_of_and h (start := 17) (len := 11) rfl,
    extractLsb'_append_extractLsb'_eq_extractLsb', extractLsb'_append_extractLsb'_eq_extractLsb',
    extractLsb'_append_extractLsb'_eq_extractLsb', BitVec.extractLsb'_eq_self] <;> rfl

theorem encodeW_fields (h : w &&& Format.w.reserved = 0#32) : encodeW op (low16 w) = w := by
  rw [encodeW, ← hop, opcodeOf, low16, ← extractLsb'_eq_zero_of_and h (start := 16) (len := 12) rfl,
    extractLsb'_append_extractLsb'_eq_extractLsb', extractLsb'_append_extractLsb'_eq_extractLsb',
    BitVec.extractLsb'_eq_self] <;> rfl

theorem encodeG_fields (h : w &&& Format.g.reserved = 0#32) : encodeG op (w.extractLsb' 0 20) = w := by
  rw [encodeG, ← hop, opcodeOf, ← extractLsb'_eq_zero_of_and h (start := 20) (len := 8) rfl,
    extractLsb'_append_extractLsb'_eq_extractLsb', extractLsb'_append_extractLsb'_eq_extractLsb',
    BitVec.extractLsb'_eq_self] <;> rfl

theorem encodeC_fields (h : w &&& Format.c.reserved = 0#32) :
    encodeC op (w.extractLsb' 0 12) (w.getLsbD 12) = w := by
  rw [encodeC, ← hop, opcodeOf, ofBool_getLsbD, ← extractLsb'_eq_zero_of_and h (start := 13) (len := 15) rfl,
    extractLsb'_append_extractLsb'_eq_extractLsb', extractLsb'_append_extractLsb'_eq_extractLsb',
    extractLsb'_append_extractLsb'_eq_extractLsb', BitVec.extractLsb'_eq_self] <;> rfl

theorem encodeK_fields (h : w &&& Format.k.reserved = 0#32) :
    encodeK op (Rate.ofCode (w.extractLsb' 0 2)) (Mode.ofBit (w.getLsbD 2)) (w.getLsbD 3) (w.extractLsb' 8 8) = w := by
  rw [encodeK, ← hop, opcodeOf, Rate.code_ofCode, Mode.bit_ofBit, ofBool_getLsbD, ofBool_getLsbD,
    ← extractLsb'_eq_zero_of_and h (start := 16) (len := 12) rfl,
    ← extractLsb'_eq_zero_of_and h (start := 4) (len := 4) rfl,
    extractLsb'_append_extractLsb'_eq_extractLsb', extractLsb'_append_extractLsb'_eq_extractLsb',
    extractLsb'_append_extractLsb'_eq_extractLsb', extractLsb'_append_extractLsb'_eq_extractLsb',
    extractLsb'_append_extractLsb'_eq_extractLsb', extractLsb'_append_extractLsb'_eq_extractLsb',
    BitVec.extractLsb'_eq_self] <;> rfl

end

/-- What the opcode map reads from a word whose reserved bits are 0 is the operation of that word and of no other. -/
theorem encode_of_operationOf {w : Word} {f : Format} {i : Instr} (hop : operationOf w = some (f, i))
    (hr : w &&& f.reserved = 0#32) : encode i = w := by
  unfold operationOf at hop
  split at hop <;> cases hop
  case h_1 h => exact encodeC_fields (BitVec.eq_of_toNat_eq h) hr
  case h_2 h | h_3 h => exact encodeV_fields (BitVec.eq_of_toNat_eq h) hr
  case h_5 h => exact encodeG_fields (BitVec.eq_of_toNat_eq h) hr
  case h_11 h => exact encodeK_fields (BitVec.eq_of_toNat_eq h) hr
  case h_9 h | h_12 h | h_13 h => exact encodeN_fields (BitVec.eq_of_toNat_eq h) hr
  case h_4 h | h_6 h | h_7 h | h_8 h | h_10 h => exact encodeW_fields (BitVec.eq_of_toNat_eq h) hr

/-- Settles O12: of a word that decodes, the opcode, the reserved bits and the fields are those of its operation
(`encode_of_operationOf`). -/
theorem encodeDecodeAgree : Obligations.EncodeDecodeAgree := by
  intro w i h
  obtain ⟨f, hop, hr⟩ := decode_eq_ok_iff.mp h
  exact encode_of_operationOf hop hr

/-! ## The rows of R50 -/

/-- The layout of a row of R50: an opcode and the reserved bits of a format, which the opcode map gives to the operations
of the row's mnemonic. -/
structure OpRow.Layout (r : OpRow) (op : BitVec 4) (f : Format) : Prop where
  pattern   : r.pattern = op ++ 0#28
  mask      : r.mask = f.mask
  operation : ∀ w, opcodeOf w = op → ∃ i, operationOf w = some (f, i) ∧ i.mnemonic = r.mnemonic

theorem opRows_layout : ∀ r ∈ opRows, ∃ op f, r.Layout op f := by
  simp only [opRows, List.forall_mem_cons, List.not_mem_nil, false_imp_iff, implies_true, and_true]
  refine ⟨⟨0x1#4, .c, rfl, rfl, ?_⟩, ⟨0x2#4, .v, rfl, rfl, ?_⟩, ⟨0x3#4, .v, rfl, rfl, ?_⟩, ⟨0x4#4, .w, rfl, rfl, ?_⟩,
    ⟨0x5#4, .g, rfl, rfl, ?_⟩, ⟨0x6#4, .w, rfl, rfl, ?_⟩, ⟨0x7#4, .w, rfl, rfl, ?_⟩, ⟨0x8#4, .w, rfl, rfl, ?_⟩,
    ⟨0x9#4, .n, rfl, rfl, ?_⟩, ⟨0xA#4, .w, rfl, rfl, ?_⟩, ⟨0xB#4, .k, rfl, rfl, ?_⟩, ⟨0xC#4, .n, rfl, rfl, ?_⟩,
    ⟨0xD#4, .n, rfl, rfl, ?_⟩⟩ <;>
    exact fun w h => ⟨_, by rw [operationOf, h]; rfl, rfl⟩

theorem opRow_eq_of_mnemonic_eq : ∀ r ∈ opRows, ∀ r' ∈ opRows, r.mnemonic = r'.mnemonic → r = r' := by decide

/-- The word of an operation spells a row of its mnemonic, operation by operation. -/
theorem encode_spells (i : Instr) : Laws.OpcodeRow.Statement i := by
  cases i with
  | crc4 v inv => exact Laws.OpcodeRow.crc4 v inv
  | encThrottle x t => exact Laws.OpcodeRow.encThrottle x t
  | encCommand x t => exact Laws.OpcodeRow.encCommand x t
  | decFrame x => exact Laws.OpcodeRow.decFrame x
  | gcrDecode raw => exact Laws.OpcodeRow.gcrDecode raw
  | gcrEncode x => exact Laws.OpcodeRow.gcrEncode x
  | decTelemetry x => exact Laws.OpcodeRow.decTelemetry x
  | tx x => exact Laws.OpcodeRow.tx x
  | rx => exact Laws.OpcodeRow.rx
  | classify x => exact Laws.OpcodeRow.classify x
  | config r m a n => exact Laws.OpcodeRow.config r m a n
  | claim => exact Laws.OpcodeRow.claim
  | reinit => exact Laws.OpcodeRow.reinit

/-- A word that decodes spells the row of its operation. -/
theorem exists_row_of_decode {w : Word} {i : Instr} (h : decode w = .ok i) :
    ∃ r ∈ opRows, r.mnemonic = i.mnemonic ∧ r.spells w = true := by
  obtain ⟨r, hr, hname, hspells⟩ := encode_spells i
  exact ⟨r, hr, hname, encodeDecodeAgree w i h ▸ hspells⟩

/-- The decoder and a row of R50 agree on every word. -/
theorem spells_iff_decode {r : OpRow} (hr : r ∈ opRows) (w : Word) :
    w &&& r.mask = r.pattern ↔ ∃ i, decode w = .ok i ∧ i.mnemonic = r.mnemonic := by
  constructor
  · intro h
    obtain ⟨op, f, hlayout⟩ := opRows_layout r hr
    rw [hlayout.mask, hlayout.pattern, and_mask_eq_iff] at h
    obtain ⟨hop, hreserved⟩ := h
    obtain ⟨i, hi, hname⟩ := hlayout.operation w hop
    exact ⟨i, decode_eq_ok_iff.mpr ⟨f, hi, hreserved⟩, hname⟩
  · rintro ⟨i, hdecode, hname⟩
    obtain ⟨r', hr', hname', hspells⟩ := exists_row_of_decode hdecode
    obtain rfl := opRow_eq_of_mnemonic_eq r' hr' r hr (hname'.trans hname)
    exact beq_iff_eq.mp hspells

/-- Settles O13: each row by `spells_iff_decode`; two rows that one word matches have the mnemonic of its operation. -/
theorem decoderMatchesOpcodeTable : Obligations.DecoderMatchesOpcodeTable := by
  refine fun w => ⟨fun r hr => spells_iff_decode hr w, fun r hr r' hr' h h' => ?_⟩
  obtain ⟨i, hi, hname⟩ := (spells_iff_decode hr w).mp h
  obtain ⟨i', hi', hname'⟩ := (spells_iff_decode hr' w).mp h'
  obtain rfl : i = i' := Except.ok.inj (hi.symm.trans hi')
  exact opRow_eq_of_mnemonic_eq r hr r' hr' (hname.symm.trans hname')

/-- The words that spell some row are those that the decoder takes; the others are illegal (R51). -/
theorem wordWellFormed_iff {w : Word} : wordWellFormed w = true ↔ ∃ i, decode w = .ok i := by
  constructor
  · intro h
    obtain ⟨r, hr, hspells⟩ := List.any_eq_true.mp h
    obtain ⟨i, hi, -⟩ := (spells_iff_decode hr w).mp (beq_iff_eq.mp hspells)
    exact ⟨i, hi⟩
  · rintro ⟨i, hi⟩
    obtain ⟨r, hr, -, hspells⟩ := exists_row_of_decode hi
    exact List.any_eq_true.mpr ⟨r, hr, hspells⟩

/-- Settles O14: the decoder evaluated on the ten words. -/
theorem sampleWordsDecode : Obligations.SampleWordsDecode :=
  ⟨rfl, rfl, rfl, rfl, rfl, rfl, rfl, rfl, rfl, rfl⟩

end Sys2Proof
end

section
/-! PROOFS. Words at the command port: an illegal one completes with `IllegalOp` (R51), and the two of STOP put a stop frame on
the wire (R53, R60, R85, R146). -/

namespace Sys2Proof.Machine

/-! ## An illegal word (R51) -/

/-- In IDLE acceptance drives what the line has (R84): the line of R29. -/
theorem State.accepted_sameLine {s : State} (h : s.Inv) (hp : s.phase = .idle) : SameLine s s.accepted where
  lineOut := by rw [s.accepted_lineOut, h.idle_level (.inl hp)]
  lineOe := by
    have hdriven : s.lineOe ≠ false := fun hoe => Phase.released_ne_idle (h.released.mp hoe) hp
    simpa using hdriven.symm

theorem stepIn_of_illegalWord (P : Config.Build) {s : State} {w : Word} (hready : s.Ready) (hw : s.presented = some w)
    (hill : wordWellFormed w = false) : stepIn P s = .next (s.accepted.raise .illegalOp) := by
  rw [stepIn_ready hready, hw]
  cases hd : decode w with
  | ok i => simp [wordWellFormed_iff.mpr ⟨i, hd⟩] at hill
  | error e => simp only [runWord, hd]

/-- Settles O9: the step is the acceptance of the word and `raise` (`stepIn_of_illegalWord`), and neither writes more than the
status group and RESULT. -/
theorem illegalWordOnlyRaisesIllegalOp : Obligations.IllegalWordOnlyRaisesIllegalOp := by
  refine ⟨rfl, rfl, fun s w hready hinv hw hill => ⟨s.accepted.raise .illegalOp, ?_, ?_⟩⟩
  · rw [step_eq_stepIn]
    exact stepIn_of_illegalWord Config.build hready hw hill
  · have hline := State.accepted_sameLine hinv hready.phase
    exact ⟨State.raise_raisedWith _ _, rfl, rfl, ⟨rfl, rfl, rfl, rfl⟩, ⟨rfl, rfl, rfl⟩, ⟨hline.lineOut, hline.lineOe⟩,
      ⟨rfl, rfl, rfl, rfl⟩, rfl⟩

/-! ## Frames and their CRC (R54, R55, R58, R59) -/

/-- A frame is valid in a mode when its CRC nibble is right for it, position by position. -/
theorem frameValid_iff_crcRight {m : Mode} {f : Frame} : frameValid m f = true ↔ crcRight f m := by
  have hbit (i : Nat) (hi : i < 4) : (crcOf f).getLsbD i = (crc4Tx (v12Of f) m).getLsbD i ↔
      (f.getLsbD i ^^ f.getLsbD (i + 4) ^^ f.getLsbD (i + 8) ^^ f.getLsbD (i + 12)) = m.bit := by
    rw [crc4Tx_getLsbD _ m i hi]
    simp only [crcOf, v12Of, BitVec.getLsbD_extractLsb']
    grind
  rw [frameValid, beq_iff_eq]
  constructor
  · intro h i hi
    rw [← hbit i hi, h]
  · exact fun h => BitVec.eq_of_getLsbD_eq fun i hi => (hbit i hi).mpr (h i hi)

section
variable (p : BitVec 11) (t : Bool) (m : Mode)

theorem frameValid_mkFrame : frameValid m (mkFrame p t m) = true := by
  have hv : v12Of (mkFrame p t m) = p ++ BitVec.ofBool t := BitVec.extractLsb'_append_eq_left
  have hc : crcOf (mkFrame p t m) = crc4Tx (p ++ BitVec.ofBool t) m := BitVec.extractLsb'_append_eq_right
  rw [frameValid, hv, hc, beq_self_eq_true]

@[simp] theorem payloadOf_mkFrame : payloadOf (mkFrame p t m) = p := by
  rw [payloadOf, mkFrame, BitVec.extractLsb'_append_eq_of_le (by decide)]
  exact BitVec.extractLsb'_append_eq_left

@[simp] theorem tflagOf_mkFrame : tflagOf (mkFrame p t m) = t := by
  simp only [tflagOf, mkFrame, BitVec.getLsbD_append]
  simp

end

@[simp] theorem resultLow_setWidth (f : Frame) : resultLow (f.setWidth 32) = f := by
  rw [resultLow, BitVec.extractLsb'_setWidth_of_le (by decide), BitVec.extractLsb'_eq_self]

/-! ## STOP (R53, R60, R85) -/

/-- A word of the encoder at the port of a ready block is accepted as its operation. -/
theorem State.Ready.accepts {s : State} {i : Instr} (h : s.Ready) (hw : s.presented = some (encode i)) : s.Accepts i :=
  ⟨h, _, hw, decode_encode i⟩

theorem State.presented_of_submit {s : State} {w : Word} {h : List HostAct} (hs : s.host = .submit w :: h) :
    s.presented = some w := by
  simp [State.presented, hs]

/-- `TX $R` after an operation without error presents the TX of RESULT (R53). -/
theorem State.presented_of_txResult {s : State} {h : List HostAct} (hs : s.host = .txResult :: h) (he : s.err = false) :
    s.presented = some (encode (.tx (resultLow s.result))) := by
  simp [State.presented, hs, he]

/-- TX of a frame valid in the mode starts the driver (R85). -/
theorem execTx_of_frameValid {s : State} {f : Frame} (h : frameValid s.mode f = true) :
    execTx f s = .next { s with shreg := f, bitIdx := 15#4, cnt := 0, phase := .tx, busy := true } := by
  simp [execTx, h]

/-- The first word of STOP completes with the stop frame of the mode, whatever `fault` is: 0 is a throttle value in every
build (R60). -/
theorem stepIn_stop (P : Config.Build) {s : State} {later : List HostAct} (hready : s.Ready)
    (hhost : s.host = pseudoStop ++ later) :
    stepIn P s = .next (s.accepted.complete ((mkFrame 0#11 false s.mode).setWidth 32)) :=
  stepIn_of_accepts P (hready.accepts (State.presented_of_submit hhost))

/-- `TX $R` after an operation that completed with a frame valid in the mode starts the transmission of that frame,
whatever `fault` is. -/
theorem stepIn_txResult (P : Config.Build) {s : State} {f : Frame} {later : List HostAct} (hready : s.Ready)
    (hhost : s.host = .txResult :: later) (hdone : s.CompletedWith (f.setWidth 32))
    (hvalid : frameValid s.mode f = true) :
    ∃ t, stepIn P s = .next t ∧ t.phase = .tx ∧ t.busy = true ∧ t.shreg = f ∧ t.host = later ∧ t.fault = s.fault := by
  have hw := State.presented_of_txResult hhost hdone.err
  rw [hdone.result, resultLow_setWidth] at hw
  rw [stepIn_of_accepts P (hready.accepts hw), execIn_tx, execTx_of_frameValid (s := s.accepted) hvalid]
  exact ⟨_, rfl, rfl, rfl, rfl, congrArg List.tail hhost, rfl⟩

/-- Settles O49: the first word completes with the stop frame (`stepIn_stop`), valid in the mode, and the second sends it
(`stepIn_txResult`). -/
theorem stopAlwaysReachesTheWire : Obligations.StopAlwaysReachesTheWire := by
  intro s later hready hnr hhost
  have hu := stepIn_stop Config.build hready hhost
  have hvalid := frameValid_mkFrame 0#11 false s.mode
  generalize hf : mkFrame 0#11 false s.mode = f at hu hvalid
  have huready : (s.accepted.complete (f.setWidth 32)).Ready :=
    ⟨State.noReset_pins (State.noReset_tail hnr rfl), rfl, rfl⟩
  obtain ⟨v, hv, hphase, hbusy, rfl, hlater, hfault⟩ :=
    stepIn_txResult Config.build huready (congrArg List.tail hhost) (State.complete_completedWith _ _) hvalid
  refine ⟨_, v, (step_eq_stepIn _).trans hu, (step_eq_stepIn _).trans hv, hphase, hbusy, ?_, ?_, ?_, hlater, hfault⟩
  · rw [← hf, payloadOf_mkFrame]
  · rw [← hf, tflagOf_mkFrame]
  · exact frameValid_iff_crcRight.mp hvalid

end Sys2Proof.Machine
end

section
/-! PROOFS. The CRC-4 (R54 to R57): the residue of a frame, linear in the frame, tells the mode it is valid in. From it the laws
of R57, the refusal of a flipped frame (R66) and of a frame of the other mode (R138). -/

namespace Sys2Proof.Machine

/-! ## CRC4 (R56) -/

/-- CRC4 answers the nibble of R55 for the mode that `inv` names. -/
theorem execCrc4_eq (v : V12) (inv : Bool) (s : State) :
    execCrc4 v inv s = .next (s.complete ((crc4Tx v (Mode.ofBit inv)).setWidth 32)) := by
  cases inv <;> rfl

/-- Settles O15: RESULT is the nibble of `crc4Tx` (`execCrc4_eq`), read bit by bit. -/
theorem crc4Result : Obligations.Crc4Result := by
  intro v inv s
  refine ⟨_, execCrc4_eq v inv s, s.complete_untouched _, s.complete_completedWith _, fun i hi => ?_, fun i hi => ?_⟩
  · have h32 : i < 32 := by omega
    simp [h32, crc4Tx_getLsbD v _ i hi]
  · have hout : (crc4Tx v (Mode.ofBit inv)).getLsbD i = false := BitVec.getLsbD_of_ge _ _ hi
    simp [hout]

/-! ## Linearity (R57) -/

theorem crc4_xor (a b : V12) : crc4 (a ^^^ b) = crc4 a ^^^ crc4 b := by
  refine BitVec.eq_of_getLsbD_eq fun i hi => ?_
  simp only [BitVec.getLsbD_xor, crc4_getLsbD _ i hi]
  simp only [Bool.xor_assoc, Bool.xor_left_comm]

/-- The mode adds to the nibble a constant that is its nibble of zero. -/
theorem crc4Tx_eq (v : V12) (m : Mode) : crc4Tx v m = crc4Tx 0#12 m ^^^ crc4 v := by
  cases m
  · exact BitVec.zero_xor.symm
  · exact BitVec.xor_comm _ _

theorem crc4Tx_zero_inj {m m' : Mode} (h : crc4Tx 0#12 m = crc4Tx 0#12 m') : m = m' := by
  revert h
  cases m <;> cases m' <;> decide

/-! ## The residue of a frame -/

/-- The nibble that a frame's CRC differs by from the uninverted CRC of its other bits. -/
def crcResidue (f : Frame) : BitVec 4 := crcOf f ^^^ crc4 (v12Of f)

theorem crcResidue_xor (f g : Frame) : crcResidue (f ^^^ g) = crcResidue f ^^^ crcResidue g := by
  have hc : crcOf (f ^^^ g) = crcOf f ^^^ crcOf g := BitVec.extractLsb'_xor
  have hv : v12Of (f ^^^ g) = v12Of f ^^^ v12Of g := BitVec.extractLsb'_xor
  rw [crcResidue, hc, hv, crc4_xor, crcResidue, crcResidue]
  ac_rfl

/-- A single bit leaves a residue at its own position modulo 4. -/
theorem crcResidue_bit {k : Nat} (h : k < 16) : crcResidue (1#16 <<< k) = 1#4 <<< (k % 4) := by
  have key : ∀ k < 16, crcResidue (1#16 <<< k) = 1#4 <<< (k % 4) := by decide
  exact key k h

/-- A frame is valid in a mode when its residue is the mode's constant. -/
theorem frameValid_iff_crcResidue {m : Mode} {f : Frame} : frameValid m f = true ↔ crcResidue f = crc4Tx 0#12 m := by
  rw [frameValid, beq_iff_eq, crc4Tx_eq, ← BitVec.xor_left_inj (crc4 (v12Of f)), BitVec.xor_assoc, BitVec.xor_self,
    BitVec.xor_zero, crcResidue]

theorem frameValid_congr {f g : Frame} (h : crcResidue f = crcResidue g) (m : Mode) :
    frameValid m f = frameValid m g := by
  rw [Bool.eq_iff_iff, frameValid_iff_crcResidue, frameValid_iff_crcResidue, h]

/-- No frame is valid in two modes. -/
theorem frameValid_mode_unique {m m' : Mode} {f : Frame} (h : frameValid m f = true) (h' : frameValid m' f = true) :
    m = m' :=
  crc4Tx_zero_inj ((frameValid_iff_crcResidue.mp h).symm.trans (frameValid_iff_crcResidue.mp h'))

/-- Two flips a multiple of four positions apart leave the residue as it was. -/
theorem crcResidue_two_flips (f : Frame) {i j : Nat} (hi : i < 16) (hj : j < 16) (h : i % 4 = j % 4) :
    crcResidue (f ^^^ (1#16 <<< i) ^^^ (1#16 <<< j)) = crcResidue f := by
  rw [crcResidue_xor, crcResidue_xor, crcResidue_bit hi, crcResidue_bit hj, h, BitVec.xor_assoc, BitVec.xor_self,
    BitVec.xor_zero]

/-- One flip of a valid frame makes it invalid. -/
theorem frameValid_flip {m : Mode} {f : Frame} {k : Nat} (hk : k < 16) (h : frameValid m f = true) :
    frameValid m (f ^^^ (1#16 <<< k)) = false := by
  rw [Bool.eq_false_iff, ne_eq, frameValid_iff_crcResidue, crcResidue_xor, crcResidue_bit hk,
    frameValid_iff_crcResidue.mp h]
  have hbit : 1#4 <<< (k % 4) ≠ 0#4 := by
    have key : ∀ n < 4, 1#4 <<< n ≠ 0#4 := by decide
    exact key _ (Nat.mod_lt k (by decide))
  intro hsame
  exact hbit (by simpa using hsame)

/-- Settles O16: linearity by `crc4_xor`, validity by the residue, which two flips of one nibble position do not change. -/
theorem crcLaws : Obligations.CrcLaws :=
  ⟨crc4_xor, rfl, fun _ _ => frameValid_iff_crcRight,
    fun _ ⟨hs, hb⟩ => absurd (frameValid_mode_unique hs hb) (by decide),
    fun f m i j hij hj h => frameValid_congr (crcResidue_two_flips f (by omega) hj (by omega)) m⟩

/-! ## The refusal of an invalid frame (R64, R85) -/

/-- An operation that answers with `raise e` ends in `e` and leaves everything else as it was (R119). -/
theorem refused_of_eq_raise {o : Host.Outcome State Fault Refusal} {s : State} {e : ErrCode} (h : o = .next (s.raise e)) :
    ∃ u, o = .next u ∧ u.RaisedWith e ∧ Untouched s u :=
  ⟨_, h, s.raise_raisedWith e, s.raise_untouched e⟩

theorem decFrameIn_of_not_frameValid (P : Config.Build) {s : State} {f : Frame} (h : frameValid s.mode f = false) :
    decFrameIn P f s = .next (s.raise .crcMismatch) := by
  simp [decFrameIn, h]

theorem execTx_of_not_frameValid {s : State} {f : Frame} (h : frameValid s.mode f = false) :
    execTx f s = .next (s.raise .crcMismatch) := by
  simp [execTx, h]

/-- Settles O21: the flipped frame is not valid (`frameValid_flip`), and both operations refuse such a frame. -/
theorem flippedFrameIsRefused : Obligations.FlippedFrameIsRefused := by
  intro f k s hk hf
  have hflip := frameValid_flip hk (frameValid_iff_crcRight.mpr hf)
  exact ⟨refused_of_eq_raise (decFrameIn_of_not_frameValid Config.build hflip),
    refused_of_eq_raise (execTx_of_not_frameValid hflip)⟩

/-! ## A change of mode (R138) -/

/-- ENC_THROTTLE without error completes with the frame of the value in the current mode (R60). -/
theorem encThrottleIn_ok {P : Config.Build} {value : BitVec 16} {t : Bool} {s u : State}
    (h : encThrottleIn P value t s = .next u) (he : u.err = false) :
    u = s.complete ((mkFrame (payloadOfValue value) t s.mode).setWidth 32) := by
  rw [encThrottleIn] at h
  split at h <;> cases h
  · rfl
  · cases he

/-- ENC_COMMAND without error completes with the frame of the value in the current mode (R62). -/
theorem encCommandIn_ok {P : Config.Build} {value : BitVec 16} {t : Bool} {s u : State}
    (h : encCommandIn P value t s = .next u) (he : u.err = false) :
    u = s.complete ((mkFrame (payloadOfValue value) t s.mode).setWidth 32) := by
  rw [encCommandIn] at h
  split at h
  · cases h
    cases he
  · split at h <;> cases h
    · cases he
    · rfl

/-- CONFIG without error takes the new mode (R109). -/
theorem configIn_ok_mode {P : Config.Build} {r : Rate} {m : Mode} {a : Bool} {n : BitVec 8} {s t : State}
    (h : configIn P r m a n s = .next t) (he : t.err = false) : t.mode = m := by
  rw [configIn] at h
  split at h <;> cases h
  · cases he
  · rfl

/-- Settles O22: the encoder's frame is valid in the old mode, so not in the new one (`frameValid_mode_unique`). -/
theorem modeChangeInvalidatesFrame : Obligations.ModeChangeInvalidatesFrame := by
  intro i value t a n r m s u v hi hu hue hm hv hve
  have henc : u = s.complete ((mkFrame (payloadOfValue value) t s.mode).setWidth 32) := by
    obtain rfl | rfl := hi
    · exact encThrottleIn_ok hu hue
    · exact encCommandIn_ok hu hue
  have hresult : resultLow u.result = mkFrame (payloadOfValue value) t s.mode := by
    rw [henc, State.complete_result, resultLow_setWidth]
  have hmode : v.mode = m := configIn_ok_mode hv hve
  rw [hresult]
  refine refused_of_eq_raise (execTx_of_not_frameValid (Bool.eq_false_iff.mpr fun hvalid => hm ?_))
  rw [← hmode]
  exact frameValid_mode_unique hvalid (frameValid_mkFrame _ t s.mode)

end Sys2Proof.Machine
end

section
/-! PROOFS. The bounds of the driver's working state (R58, R86, R97, R106): every step keeps them. -/

namespace Sys2Proof.Machine

/-! ## Acceptance and the driver's working state (R85, R94) -/

/-- What an accepted operation makes of a state: it stays in IDLE, or starts TX on a valid frame or SWITCH in Bidirectional
mode, each with its count at 0. -/
theorem execIn_driverInv {P : Config.Build} (hP : P.Legal) {i : Instr} {s t : State} (h : execIn P i s = .next t) :
    t.DriverInv P := by
  obtain ⟨r, rfl⟩ | ⟨e, -, -, -, rfl⟩ | ⟨f, -, hv, rfl⟩ | ⟨-, hm, rfl⟩ | ⟨r, m, a, n, -, -, rfl⟩ | ⟨-, -, rfl⟩ |
    ⟨-, rfl⟩ := execIn_cases h
  case inr.inr.inl => exact State.driverInv_of_tx rfl (tbit_pos hP s.rate) hv
  case inr.inr.inr.inl => exact State.driverInv_of_switch rfl hP.tSwitch hm
  all_goals exact State.driverInv_of_idle P rfl

/-- A step from IDLE leaves the driver in IDLE or is the acceptance of an operation; a step of a busy block makes progress. -/
theorem stepIn_driverInv {P : Config.Build} (hP : P.Legal) {s t : State} (hs : s.DriverInv P)
    (h : stepIn P s = .next t) : t.DriverInv P := by
  by_cases hp : s.phase = .idle
  · obtain hrst | ⟨-, i, -, hi⟩ | ⟨-, e⟩ := stepIn_writes h
    · rw [stepIn_reset hrst] at h
      cases h
      exact State.driverInv_of_idle P rfl
    · exact execIn_driverInv hP hi
    · exact State.driverInv_of_idle P (e.phase hp)
  · exact (stepIn_progress hP hs hp h).driverInv

/-- Settles O4, by `stepIn_driverInv`: at acceptance by `execIn_driverInv`, while the driver is at work by
`stepIn_progress`. -/
theorem stepKeepsDriverInvariants : Obligations.StepKeepsDriverInvariants := by
  refine ⟨fun s t hs h => ?_, fun P hP s t hs h => stepIn_driverInv hP hs h⟩
  rw [step_eq_stepIn] at h
  exact stepIn_driverInv build_legal hs h

end Sys2Proof.Machine
end

section
/-! PROOFS. Command frames (R58 to R65, R85): what the encoders put into RESULT, what DEC_FRAME reads from a frame, and the
acceptance of TX. -/

namespace Sys2Proof.Machine

/-! ## The fields of a frame as numbers (R59) -/

theorem toNat_append_eq_add {m n : Nat} (x : BitVec m) (y : BitVec n) :
    (x ++ y).toNat = 2 ^ n * x.toNat + y.toNat := by
  rw [BitVec.toNat_append, Nat.shiftLeft_eq, Nat.mul_comm, Nat.two_pow_add_eq_or_of_lt y.isLt]

/-- Bits 15:4 of a frame of the encoder are the payload and the flag. -/
theorem mkFrame_toNat_div (p : BitVec 11) (t : Bool) (m : Mode) : (mkFrame p t m).toNat / 16 = 2 * p.toNat + t.toNat := by
  have hcrc := (crc4Tx (p ++ BitVec.ofBool t) m).isLt
  simp only [mkFrame, toNat_append_eq_add, BitVec.toNat_ofBool]
  omega

theorem payloadOf_toNat (f : Frame) : (payloadOf f).toNat = f.toNat / 32 := by
  rw [payloadOf, BitVec.extractLsb'_toNat, Nat.shiftRight_eq_div_pow]
  omega

theorem tflagOf_toNat (f : Frame) : (tflagOf f).toNat = f.toNat / 16 % 2 := Nat.toNat_testBit f.toNat 4

/-- A value of eleven bits is its payload. -/
theorem payloadOfValue_toNat {value : BitVec 16} (h : value.toNat ≤ 2047) :
    (payloadOfValue value).toNat = value.toNat := by
  rw [payloadOfValue, BitVec.extractLsb'_toNat]
  omega

/-! ## The accepted values and the classes (R60 to R62) -/

section
variable {P : Config.Build} (hP : P.Legal)
include hP

theorem throttleValue_iff (value : BitVec 16) :
    throttleValue P value = true ↔ value.toNat = 0 ∨ (48 ≤ value.toNat ∧ value.toNat ≤ 2047) := by
  have hzero : value = 0#16 ↔ value.toNat = 0 := BitVec.toNat_inj.symm
  simp [throttleValue, hP.throttleMin, hP.throttleMax, hzero]

theorem commandValue_iff (value : BitVec 16) : commandValue P value = true ↔ 1 ≤ value.toNat ∧ value.toNat ≤ 47 := by
  simp [commandValue, hP.cmdMin, hP.cmdMax]

theorem classOf_toNat (p : BitVec 11) :
    (classOf P p).toNat = if p.toNat = 0 then 0 else if p.toNat ≤ 47 then 1 else 2 := by
  have hzero : p = 0#11 ↔ p.toNat = 0 := BitVec.toNat_inj.symm
  rw [classOf, hP.cmdMax]
  simp only [hzero, apply_ite BitVec.toNat, BitVec.toNat_ofNat, Nat.reducePow, Nat.reduceMod]

end

/-! ## The encoders (R60, R62) -/

/-- What an encoder completes with: a frame of the value and the flag with the CRC of the mode. -/
theorem State.complete_mkFrame (s : State) {value : BitVec 16} (t : Bool) (h : value.toNat ≤ 2047) :
    ∃ f : Frame, (s.complete ((mkFrame (payloadOfValue value) t s.mode).setWidth 32)).CompletedWith (f.setWidth 32) ∧
      f.toNat / 16 = 2 * value.toNat + t.toNat ∧ crcRight f s.mode := by
  refine ⟨_, State.complete_completedWith _ _, ?_, frameValid_iff_crcRight.mp (frameValid_mkFrame _ t s.mode)⟩
  rw [mkFrame_toNat_div, payloadOfValue_toNat h]

section
variable {P : Config.Build} {value : BitVec 16} {s : State} (t : Bool)

theorem encThrottleIn_of_throttleValue (h : throttleValue P value = true) :
    encThrottleIn P value t s = .next (s.complete ((mkFrame (payloadOfValue value) t s.mode).setWidth 32)) :=
  if_pos h

theorem encThrottleIn_of_not_throttleValue (h : ¬throttleValue P value = true) :
    encThrottleIn P value t s = .next (s.raise .invalidPayload) :=
  if_neg h

theorem encCommandIn_of_allowed (hv : commandValue P value = true)
    (he : ¬(P.edtCommands value.toNat = true ∧ s.edtAdv = false)) :
    encCommandIn P value t s = .next (s.complete ((mkFrame (payloadOfValue value) t s.mode).setWidth 32)) := by
  have hedt : (!s.edtAdv && P.edtCommands value.toNat) = false := by
    rw [Bool.eq_false_iff, ne_eq, Bool.and_eq_true, Bool.not_eq_true']
    exact fun ⟨hadv, hcmd⟩ => he ⟨hcmd, hadv⟩
  simp [encCommandIn, hv, hedt]

theorem encCommandIn_of_not_commandValue (hv : ¬commandValue P value = true) :
    encCommandIn P value t s = .next (s.raise .invalidPayload) := by
  simp [encCommandIn, hv]

/-- The EDT check (R62). -/
theorem encCommandIn_of_edt (he : P.edtCommands value.toNat = true ∧ s.edtAdv = false) :
    encCommandIn P value t s = .next (s.raise .invalidPayload) := by
  obtain ⟨hedt, hadv⟩ := he
  simp [encCommandIn, hedt, hadv]

end

/-- Settles O17: the range of `throttleValue_iff` decides between the frame (`State.complete_mkFrame`) and `raise`. -/
theorem encThrottleResult : Obligations.EncThrottleResult := by
  intro value t s
  rw [← throttleValue_iff build_legal]
  by_cases hv : throttleValue Config.build value = true
  · have hmax : value.toNat ≤ 2047 := by
      have := (throttleValue_iff build_legal value).mp hv
      omega
    exact ⟨_, encThrottleIn_of_throttleValue t hv, s.complete_untouched _, fun _ => s.complete_mkFrame t hmax,
      fun hn => absurd hv hn⟩
  · exact ⟨_, encThrottleIn_of_not_throttleValue t hv, s.raise_untouched _, fun hr => absurd hr hv,
      fun _ => s.raise_raisedWith _⟩

/-- Settles O18: the range check, then the EDT check; past both the frame (`State.complete_mkFrame`). -/
theorem encCommandResult : Obligations.EncCommandResult := by
  intro value t s
  rw [← commandValue_iff build_legal]
  by_cases hv : commandValue Config.build value = true
  · by_cases he : Config.isEdtCommand value.toNat = true ∧ s.edtAdv = false
    · exact ⟨_, encCommandIn_of_edt t he, s.raise_untouched _, fun ⟨_, hn⟩ => absurd he hn,
        fun _ => s.raise_raisedWith _⟩
    · have hmax : value.toNat ≤ 2047 := by
        have := (commandValue_iff build_legal value).mp hv
        omega
      exact ⟨_, encCommandIn_of_allowed t hv he, s.complete_untouched _, fun _ => s.complete_mkFrame t hmax,
        fun hn => absurd ⟨hv, he⟩ hn⟩
  · exact ⟨_, encCommandIn_of_not_commandValue t hv, s.raise_untouched _, fun ⟨hr, _⟩ => absurd hr hv,
      fun _ => s.raise_raisedWith _⟩

/-! ## The decoder (R64) -/

/-- RESULT of DEC_FRAME as a number (R15). -/
theorem decFrameResult_eq_ofNat (cls : BitVec 2) (t : Bool) (p : BitVec 11) :
    decFrameResult cls t p = BitVec.ofNat 32 (p.toNat + 2048 * t.toNat + 4096 * cls.toNat) := by
  have hnat : (decFrameResult cls t p).toNat = p.toNat + 2048 * t.toNat + 4096 * cls.toNat := by
    simp only [decFrameResult, toNat_append_eq_add, BitVec.toNat_ofBool, BitVec.toNat_ofNat]
    omega
  rw [← hnat, BitVec.ofNat_toNat, BitVec.setWidth_eq]

theorem decFrameResult_payload (cls : BitVec 2) (t : Bool) (p : BitVec 11) :
    (decFrameResult cls t p).extractLsb' 0 11 = p :=
  BitVec.extractLsb'_append_eq_right

theorem decFrameResult_tflag (cls : BitVec 2) (t : Bool) (p : BitVec 11) :
    (decFrameResult cls t p).getLsbD 11 = t := by
  simp only [decFrameResult, BitVec.getLsbD_append]
  simp

theorem decFrameIn_of_frameValid (P : Config.Build) {s : State} {f : Frame} (h : frameValid s.mode f = true) :
    decFrameIn P f s = .next (s.complete (decFrameResult (classOf P (payloadOf f)) (tflagOf f) (payloadOf f))) := by
  simp [decFrameIn, h]

/-- Settles O19: the CRC decides, and the three fields of RESULT are those of the frame as numbers. -/
theorem decFrameResultHolds : Obligations.DecFrameResult := by
  intro w s
  rw [← frameValid_iff_crcRight]
  by_cases hv : frameValid s.mode w = true
  · refine ⟨_, decFrameIn_of_frameValid _ hv, s.complete_untouched _, fun _ => ?_, fun hn => absurd hv hn⟩
    rw [decFrameResult_eq_ofNat, classOf_toNat build_legal, payloadOf_toNat, tflagOf_toNat]
    exact s.complete_completedWith _
  · exact ⟨_, decFrameIn_of_not_frameValid _ (by simpa using hv), s.raise_untouched _, fun hr => absurd hr hv,
      fun _ => s.raise_raisedWith _⟩

/-! ## Encode, then decode (R65) -/

/-- With a frame of the encoder in RESULT, DEC_FRAME in the same mode reads the payload and the flag that were encoded. -/
theorem decFrameIn_of_encoded (P : Config.Build) {u : State} {p : BitVec 11} {t : Bool}
    (h : u.result = (mkFrame p t u.mode).setWidth 32) :
    decFrameIn P (resultLow u.result) u = .next (u.complete (decFrameResult (classOf P p) t p)) := by
  rw [h, resultLow_setWidth, decFrameIn_of_frameValid P (frameValid_mkFrame p t u.mode), payloadOf_mkFrame,
    tflagOf_mkFrame]

/-- Settles O20: both encoders complete with the frame of the value, which `decFrameIn_of_encoded` reads back. -/
theorem encodeThenDecodeRoundTrip : Obligations.EncodeThenDecodeRoundTrip := by
  intro value t s i hi
  have henc : value.toNat ≤ 2047 ∧
      ∃ u, exec i s = .next u ∧ u.result = (mkFrame (payloadOfValue value) t u.mode).setWidth 32 := by
    obtain ⟨rfl, hv⟩ | ⟨rfl, hmin, hmax, hedt⟩ := hi
    · have hrange : value.toNat = 0 ∨ (48 ≤ value.toNat ∧ value.toNat ≤ 2047) :=
        hv.imp_left (congrArg BitVec.toNat)
      exact ⟨by omega, _, encThrottleIn_of_throttleValue t ((throttleValue_iff build_legal value).mpr hrange), rfl⟩
    · exact ⟨by omega, _, encCommandIn_of_allowed t ((commandValue_iff build_legal value).mpr ⟨hmin, hmax⟩) hedt, rfl⟩
  obtain ⟨hmax, u, hu, hresult⟩ := henc
  refine ⟨u, _, hu, decFrameIn_of_encoded Config.build hresult, State.complete_err _ _, ?_, ?_⟩
  · rw [State.complete_result, decFrameResult_payload, payloadOfValue_toNat hmax]
  · rw [State.complete_result, decFrameResult_tflag]

/-! ## The acceptance of TX (R85) -/

/-- Settles O32: the CRC decides between the start of the driver and `CrcMismatch`. -/
theorem txAcceptance : Obligations.TxAcceptance := by
  intro f s
  rw [← frameValid_iff_crcRight]
  by_cases hv : frameValid s.mode f = true
  · exact ⟨_, execTx_of_frameValid hv, fun _ => ⟨rfl, rfl, rfl, rfl, rfl, rfl, rfl, rfl, ⟨rfl, rfl, rfl, rfl⟩,
      ⟨rfl, rfl, rfl⟩, ⟨rfl, rfl⟩, ⟨rfl, rfl, rfl⟩, ⟨rfl, rfl⟩⟩, fun hn => absurd hv hn⟩
  · exact ⟨_, execTx_of_not_frameValid (by simpa using hv), fun hr => absurd hr hv,
      fun _ => ⟨s.raise_raisedWith _, s.raise_untouched _⟩⟩

end Sys2Proof.Machine
end

section
/-! PROOFS. The GCR code (R67 to R74): levels and transitions as inverse maps of symbols, a symbol as four quintets, and the
two operations on them. -/

namespace Sys2Proof.Machine

/-! ## Levels and transitions (R72, R74) -/

theorem gcrGray_getLsbD (x : Raw) (i : Nat) : (gcrGray x).getLsbD i = (x.getLsbD i ^^ x.getLsbD (i + 1)) := by
  rw [gcrGray, BitVec.getLsbD_xor, BitVec.getLsbD_ushiftRight, Nat.add_comm]

theorem gcrGray_xor (x y : Raw) : gcrGray (x ^^^ y) = gcrGray x ^^^ gcrGray y := by
  simp only [gcrGray, BitVec.ushiftRight_xor_distrib]
  ac_rfl

/-- The exclusive-or of the first `n` shifts telescopes under `gcrGray`. -/
theorem gcrGray_foldl_shifts (g : Raw) (n : Nat) :
    gcrGray ((List.range n).foldl (fun acc k => acc ^^^ (g >>> k)) 0#20) = g ^^^ (g >>> n) := by
  induction n with
  | zero => simp [gcrGray]
  | succ n ih =>
    rw [List.range_succ, List.foldl_append, List.foldl_cons, List.foldl_nil, gcrGray_xor, ih, gcrGray,
      ← BitVec.shiftRight_add, ← BitVec.xor_assoc, BitVec.xor_assoc g, BitVec.xor_self, BitVec.xor_zero]

@[simp] theorem gcrGray_gcrUngray (g : Raw) : gcrGray (gcrUngray g) = g := by
  rw [gcrUngray, gcrGray_foldl_shifts, BitVec.ushiftRight_eq_zero (Nat.le_refl 20), BitVec.xor_zero]

/-- A symbol without transitions is its own half, so 0. -/
theorem eq_zero_of_gcrGray_eq_zero {x : Raw} (h : gcrGray x = 0#20) : x = 0#20 := by
  rw [gcrGray, BitVec.xor_eq_zero_iff] at h
  have hhalf := congrArg BitVec.toNat h
  rw [BitVec.toNat_ushiftRight, Nat.shiftRight_eq_div_pow] at hhalf
  exact BitVec.eq_of_toNat_eq (by rw [BitVec.toNat_ofNat]; omega)

theorem gcrGray_injective {x y : Raw} (h : gcrGray x = gcrGray y) : x = y := by
  rw [← BitVec.xor_eq_zero_iff]
  exact eq_zero_of_gcrGray_eq_zero (by rw [gcrGray_xor, h, BitVec.xor_self])

@[simp] theorem gcrUngray_gcrGray (x : Raw) : gcrUngray (gcrGray x) = x :=
  gcrGray_injective (gcrGray_gcrUngray _)

theorem gcrUngray_eq_iff {g raw : Raw} : gcrUngray g = raw ↔ g = gcrGray raw :=
  ⟨fun h => by rw [← h, gcrGray_gcrUngray], fun h => by rw [h, gcrUngray_gcrGray]⟩

/-- R72: a level is the exclusive-or of the transition into it and the level before it. -/
theorem gcrUngray_getLsbD (g : Raw) (i : Nat) :
    (gcrUngray g).getLsbD i = (g.getLsbD i ^^ (gcrUngray g).getLsbD (i + 1)) := by
  conv => enter [2, 1]; rw [← gcrGray_gcrUngray g, gcrGray_getLsbD]
  rw [Bool.xor_assoc, Bool.xor_self, Bool.xor_false]

/-- Settles O23: the maps are inverse by `gcrGray_gcrUngray` and `gcrGray_injective`; above bit 19 every level is 0. -/
theorem grayAndUngrayAreInverse : Obligations.GrayAndUngrayAreInverse := by
  intro x
  have htop : ∀ y : Raw, y.getLsbD (19 + 1) = false := fun y => BitVec.getLsbD_of_ge y _ (Nat.le_refl 20)
  refine ⟨gcrUngray_gcrGray x, gcrGray_gcrUngray x, ?_, fun i _ => gcrGray_getLsbD x i, ?_,
    fun i _ => gcrUngray_getLsbD x i⟩
  · rw [gcrGray_getLsbD, htop, Bool.xor_false]
  · rw [gcrUngray_getLsbD, htop, Bool.xor_false]

/-! ## Frames as nibbles, symbols as quintets -/

/-- Nibble `k` of a frame, nibble 0 lowest. -/
def nibbleOf (x : Frame) (k : Nat) : BitVec 4 := x.extractLsb' (4 * k) 4

/-- Quintet `k` of the transitions of a symbol, quintet 0 lowest (R70). -/
def quintetOf (raw : Raw) (k : Nat) : BitVec 5 := (gcrGray raw).extractLsb' (5 * k) 5

theorem append_inj {m n : Nat} {a b : BitVec m} {x y : BitVec n} : a ++ x = b ++ y ↔ a = b ∧ x = y := by
  refine ⟨fun h => ⟨?_, ?_⟩, fun ⟨ha, hx⟩ => by rw [ha, hx]⟩
  · simpa only [BitVec.extractLsb'_append_eq_left] using congrArg (BitVec.extractLsb' n m) h
  · simpa only [BitVec.extractLsb'_append_eq_right] using congrArg (BitVec.extractLsb' 0 n) h

theorem forall_lt_four {p : Nat → Prop} : (∀ k, k < 4 → p k) ↔ p 3 ∧ p 2 ∧ p 1 ∧ p 0 := by
  refine ⟨fun h => ⟨h 3 (by decide), h 2 (by decide), h 1 (by decide), h 0 (by decide)⟩, ?_⟩
  rintro ⟨h3, h2, h1, h0⟩ k hk
  interval_cases k <;> assumption

theorem append_nibbles (x : Frame) : nibbleOf x 3 ++ nibbleOf x 2 ++ nibbleOf x 1 ++ nibbleOf x 0 = x := by
  simp only [nibbleOf]
  rw [BitVec.extractLsb'_append_extractLsb'_eq_extractLsb' (by rfl),
    BitVec.extractLsb'_append_extractLsb'_eq_extractLsb' (by rfl),
    BitVec.extractLsb'_append_extractLsb'_eq_extractLsb' (by rfl)]
  exact BitVec.extractLsb'_eq_self

theorem append_quintets (raw : Raw) :
    quintetOf raw 3 ++ quintetOf raw 2 ++ quintetOf raw 1 ++ quintetOf raw 0 = gcrGray raw := by
  simp only [quintetOf]
  rw [BitVec.extractLsb'_append_extractLsb'_eq_extractLsb' (by rfl),
    BitVec.extractLsb'_append_extractLsb'_eq_extractLsb' (by rfl),
    BitVec.extractLsb'_append_extractLsb'_eq_extractLsb' (by rfl)]
  exact BitVec.extractLsb'_eq_self

theorem append_nibbles_eq_iff {a b c d : BitVec 4} {x : Frame} : a ++ b ++ c ++ d = x ↔
    a = nibbleOf x 3 ∧ b = nibbleOf x 2 ∧ c = nibbleOf x 1 ∧ d = nibbleOf x 0 := by
  conv_lhs => rw [← append_nibbles x]
  simp only [append_inj, and_assoc]

theorem append_quintets_eq_iff {a b c d : BitVec 5} {raw : Raw} : a ++ b ++ c ++ d = gcrGray raw ↔
    a = quintetOf raw 3 ∧ b = quintetOf raw 2 ∧ c = quintetOf raw 1 ∧ d = quintetOf raw 0 := by
  rw [← append_quintets raw]
  simp only [append_inj, and_assoc]

/-! ## Decoding and encoding (R70, R73) -/

theorem gcrDecodeWith_eq_some_iff {T : BitVec 4 → BitVec 5} {raw : Raw} {x : Frame} :
    gcrDecodeWith T raw = some x ↔ ∀ k, k < 4 → gcrInv T (quintetOf raw k) = some (nibbleOf x k) := by
  rw [forall_lt_four, gcrDecodeWith]
  constructor
  · intro h
    split at h
    next n3 n2 n1 n0 h3 h2 h1 h0 =>
      obtain ⟨rfl, rfl, rfl, rfl⟩ := append_nibbles_eq_iff.mp (Option.some.inj h)
      exact ⟨h3, h2, h1, h0⟩
    next => cases h
  · rintro ⟨h3, h2, h1, h0⟩
    simp only [quintetOf, Nat.reduceMul] at h3 h2 h1 h0
    simp only [h3, h2, h1, h0, append_nibbles]

/-- A symbol with a quintet that is not in the table does not decode. -/
theorem gcrDecodeWith_eq_none {T : BitVec 4 → BitVec 5} {raw : Raw} {k : Nat} (hk : k < 4)
    (h : ∀ n, T n ≠ quintetOf raw k) : gcrDecodeWith T raw = none := by
  refine Option.eq_none_iff_forall_ne_some.mpr fun x hx => ?_
  have := gcrDecodeWith_eq_some_iff.mp hx k hk
  rw [gcrInv_none.mpr h] at this
  cases this

/-- The encoding of a frame is the symbol whose quintets the table gives for the frame's nibbles. -/
theorem gcrEncodeWith_eq_iff {T : BitVec 4 → BitVec 5} {raw : Raw} {x : Frame} :
    gcrEncodeWith T x = raw ↔ ∀ k, k < 4 → T (nibbleOf x k) = quintetOf raw k := by
  have hunfold : gcrEncodeWith T x =
      gcrUngray (T (nibbleOf x 3) ++ T (nibbleOf x 2) ++ T (nibbleOf x 1) ++ T (nibbleOf x 0)) := rfl
  rw [hunfold, gcrUngray_eq_iff, append_quintets_eq_iff, forall_lt_four]

section
variable {T : BitVec 4 → BitVec 5} (hT : ∀ a b, T a = T b → a = b)
include hT

theorem gcrInv_eq_some_iff {q : BitVec 5} {n : BitVec 4} : gcrInv T q = some n ↔ T n = q :=
  ⟨gcrInv_sound, fun h => h ▸ gcrInv_apply hT n⟩

theorem gcrDecodeWith_eq_some_iff_encode {raw : Raw} {x : Frame} :
    gcrDecodeWith T raw = some x ↔ gcrEncodeWith T x = raw := by
  simp only [gcrDecodeWith_eq_some_iff, gcrEncodeWith_eq_iff, gcrInv_eq_some_iff hT]

theorem gcrDecodeWith_encode (x : Frame) : gcrDecodeWith T (gcrEncodeWith T x) = some x :=
  (gcrDecodeWith_eq_some_iff_encode hT).mpr rfl

end

/-- Settles O25: both sides say that the table takes the nibbles of the frame to the quintets of the symbol. -/
theorem gcrDecodesExactlyTheCodewords : Obligations.GcrDecodesExactlyTheCodewords :=
  fun _ hT _ _ => gcrDecodeWith_eq_some_iff_encode hT

/-! ## The operations (R71, R73) -/

theorem gcrDecodeIn_of_some {P : Config.Build} {raw : Raw} {x : Frame} (s : State)
    (h : gcrDecodeWith P.gcrTable raw = some x) : gcrDecodeIn P raw s = .next (s.complete (x.setWidth 32)) := by
  rw [gcrDecodeIn, h]

theorem gcrDecodeIn_of_none {P : Config.Build} {raw : Raw} (s : State) (h : gcrDecodeWith P.gcrTable raw = none) :
    gcrDecodeIn P raw s = .next (s.raise .gcrFraming) := by
  rw [gcrDecodeIn, h]

section
variable {P : Config.Build} (hT : ∀ a b, P.gcrTable a = P.gcrTable b → a = b)
include hT

theorem gcrDecodeIn_ends (raw : Raw) (s : State) :
    ∃ t, gcrDecodeIn P raw s = .next t ∧ GcrDecodeEnds P.gcrTable raw s t := by
  cases h : gcrDecodeWith P.gcrTable raw with
  | some x =>
    refine ⟨_, gcrDecodeIn_of_some s h, s.complete_untouched _, fun y hy => ?_, fun ⟨k, hk, hbad⟩ => ?_⟩
    · have hxy : gcrDecodeWith P.gcrTable raw = some y :=
        (gcrDecodeWith_eq_some_iff_encode hT).mpr (gcrEncodeWith_eq_iff.mpr hy)
      obtain rfl : x = y := Option.some.inj (h.symm.trans hxy)
      exact s.complete_completedWith _
    · cases h.symm.trans (gcrDecodeWith_eq_none hk hbad)
  | none =>
    refine ⟨_, gcrDecodeIn_of_none s h, s.raise_untouched _, fun y hy => ?_, fun _ => s.raise_raisedWith _⟩
    cases h.symm.trans ((gcrDecodeWith_eq_some_iff_encode hT).mpr (gcrEncodeWith_eq_iff.mpr hy))

theorem gcrEncodeIn_ends (w : Frame) (s : State) :
    ∃ t, gcrEncodeIn P w s = .next t ∧ GcrEncodeEnds P.gcrTable w s t :=
  ⟨_, rfl, s.complete_untouched _, _, s.complete_completedWith _, gcrDecodeWith_encode hT w,
    fun k hk => (gcrEncodeWith_eq_iff.mp rfl k hk).symm⟩

end

/-- Settles O26, by `gcrDecodeIn_ends` for the host's build and for every legal one. -/
theorem gcrDecodeResult : Obligations.GcrDecodeResult :=
  fun raw s => ⟨gcrDecodeIn_ends build_legal.gcrTable raw s, fun _ hP => gcrDecodeIn_ends hP.gcrTable raw s⟩

/-- Settles O27, by `gcrEncodeIn_ends` for the host's build and for every legal one. -/
theorem gcrEncodeResult : Obligations.GcrEncodeResult :=
  fun w s => ⟨gcrEncodeIn_ends build_legal.gcrTable w s, fun _ hP => gcrEncodeIn_ends hP.gcrTable w s⟩

/-! ## The table (R68, R69) -/

/-- Settles O24, by evaluation over the 16 nibbles and the 32 quintets. -/
theorem gcrTableAndInverse : Obligations.GcrTableAndInverse := by
  constructor <;> decide

end Sys2Proof.Machine
end

section
/-! PROOFS. The nominal reply (R95, R99, R100, R108): its samples are the cells of the symbol stretched by the cell time. The
loop of R99 reads runs of whole cells as they are, unless a high run before the last is so long that it passes for the
last (assumption log 11); the quintets of R68 keep the runs shorter than that. -/

namespace Sys2Proof.Machine

/-! ## The cells of a symbol (R100) -/

/-- The 21 cells of a reply: bit 20 of a symbol reads 0, the level of the start cell, and the bits of the symbol follow, bit
19 first. -/
def symbolCells (raw : Raw) : List Level := (List.range 21).map fun i => raw.getLsbD (20 - i)

/-- The transitions of a symbol, the one into its first cell first. -/
def transitionsOf (raw : Raw) : List Bool := (List.range 20).map fun i => (gcrGray raw).getLsbD (19 - i)

/-- Cells at a number of ticks per cell. -/
def stretch (T : Nat) (cells : List Level) : List Level := cells.flatMap (List.replicate T)

theorem nominalReply_eq (P : Config.Build) (raw : Raw) (r : Rate) : nominalReply P raw r =
    stretch (tcell P r) (symbolCells raw) ++ List.replicate (window P r - 21 * tcell P r) true := by
  have hcells : symbolCells raw = false :: (List.range 20).map fun i => raw.getLsbD (19 - i) := by
    rw [symbolCells, List.range_succ_eq_map, List.map_cons, List.map_map, Nat.sub_zero,
      BitVec.getLsbD_of_ge _ _ (Nat.le_refl 20)]
    refine congrArg _ (List.map_congr_left fun i _ => ?_)
    rw [Function.comp, Nat.succ_eq_add_one, Nat.add_comm, ← Nat.sub_sub]
  rw [nominalReply, stretch, hcells, List.flatMap_cons, List.flatMap_map]

/-- One bit shifted in per cell (R100). -/
theorem foldl_shiftIn_getLsbD (cells : List Level) (acc : Raw) {i : Nat} (hi : i < 20) :
    (cells.foldl (fun (acc : Raw) b => (acc <<< 1) ||| (BitVec.ofBool b).setWidth 20) acc).getLsbD i =
      if i < cells.length then cells.getD (cells.length - 1 - i) false else acc.getLsbD (i - cells.length) := by
  induction cells generalizing acc with
  | nil => rfl
  | cons c cells ih =>
    have hshift : ∀ k < 20, ((acc <<< 1) ||| (BitVec.ofBool c).setWidth 20).getLsbD k =
        if k = 0 then c else acc.getLsbD (k - 1) := by
      intro k hk
      cases k with
      | zero => simp
      | succ k => simp [hk, BitVec.getLsbD_eq_getElem (show k < 20 by omega)]
    rw [List.foldl_cons, ih, List.length_cons]
    obtain hlt | heq | hgt := Nat.lt_trichotomy i cells.length
    · rw [if_pos hlt, if_pos (by omega), show cells.length + 1 - 1 - i = cells.length - 1 - i + 1 by omega,
        List.getD_cons_succ]
    · rw [if_neg (by omega), if_pos (by omega), hshift _ (by omega), if_pos (by omega),
        show cells.length + 1 - 1 - i = 0 by omega, List.getD_cons_zero]
    · rw [if_neg (by omega), if_neg (by omega), hshift _ (by omega), if_neg (by omega), Nat.sub_sub]

/-- R100: bit `i` of the symbol is cell `20 - i`. -/
theorem deframe_getLsbD {cells : List Level} (h : cells.length = 21) {i : Nat} (hi : i < 20) :
    (deframe cells).getLsbD i = cells.getD (20 - i) false := by
  obtain ⟨c, cells, rfl⟩ := List.exists_cons_of_length_eq_add_one h
  have hlen : cells.length = 20 := by simpa using h
  rw [deframe, List.drop_succ_cons, List.drop_zero, List.take_of_length_le hlen.le, foldl_shiftIn_getLsbD _ _ hi, hlen,
    if_pos hi, show 20 - i = 20 - 1 - i + 1 by omega, List.getD_cons_succ]

theorem deframe_symbolCells (raw : Raw) : deframe (symbolCells raw) = raw := by
  refine BitVec.eq_of_getLsbD_eq fun i hi => ?_
  rw [deframe_getLsbD (by simp [symbolCells]) hi, symbolCells, List.getD_eq_getElem _ _ (by simp; omega),
    List.getElem_map, List.getElem_range, Nat.sub_sub_self (by omega)]

/-- The running exclusive-or of the differences of a sequence is the sequence. -/
theorem scanl_xor_range (f : Nat → Bool) (n : Nat) :
    ((List.range n).map fun i => f i ^^ f (i + 1)).scanl Bool.xor (f 0) = (List.range (n + 1)).map f := by
  induction n generalizing f with
  | zero => rfl
  | succ n ih =>
    have := ih fun i => f (i + 1)
    rw [List.range_succ_eq_map, List.map_cons, List.map_map, List.scanl_cons, ← Bool.xor_assoc, Bool.xor_self,
      Bool.false_xor, List.range_succ_eq_map (n := n + 1), List.map_cons, List.map_map]
    exact congrArg _ this

/-- The levels are the running exclusive-or of the transitions, from the level of the start cell on. -/
theorem symbolCells_eq_scanl (raw : Raw) : symbolCells raw = (transitionsOf raw).scanl Bool.xor false := by
  have htransitions : transitionsOf raw =
      (List.range 20).map fun i => raw.getLsbD (20 - i) ^^ raw.getLsbD (20 - (i + 1)) := by
    refine List.map_congr_left fun i hi => ?_
    have := List.mem_range.mp hi
    rw [gcrGray_getLsbD, Bool.xor_comm, show 19 - i + 1 = 20 - i by omega, show 19 - i = 20 - (i + 1) by omega]
  have hstart : raw.getLsbD (20 - 0) = false := BitVec.getLsbD_of_ge _ _ (Nat.le_refl 20)
  rw [htransitions, ← hstart, scanl_xor_range fun i => raw.getLsbD (20 - i), symbolCells]

/-! ## Runs of whole cells (R99) -/

theorem runsOf_head?_fst (l : List Level) : (runsOf l).head?.map Prod.fst = l.head? := by
  cases l with
  | nil => rfl
  | cons x xs =>
    obtain ⟨-, hr⟩ | ⟨d, rest, -, hr⟩ | ⟨y, d, rest, -, -, hr⟩ := runsOf_cons x xs <;> rw [hr] <;> rfl

theorem runsOf_replicate_append {d : Nat} (hd : 0 < d) {L : Level} {rest : List Level} (h : rest.head? ≠ some L) :
    runsOf (List.replicate d L ++ rest) = (L, d) :: runsOf rest := by
  induction d, hd using Nat.le_induction with
  | base =>
    obtain ⟨hrest, hr⟩ | ⟨d, tail, hrest, -⟩ | ⟨y, d, tail, -, hrest, hr⟩ := runsOf_cons L rest
    · rw [hrest]
      exact hr
    · rw [← runsOf_head?_fst, hrest] at h
      exact absurd rfl h
    · rw [hrest]
      exact hr
  | succ d hd ih =>
    rw [List.replicate_succ, List.cons_append, runsOf, ih]
    exact if_pos rfl

section
variable {P : Config.Build} (hP : P.Legal) {T : Nat}
include hP

/-- A final high run ends the loop, however long it is (R99). -/
theorem recoverRuns_finalHigh {d : Nat} {runs : List (Level × Nat)} {cells : List Level}
    (hd : 9 * (21 - cells.length) * T ≤ 10 * d) :
    recoverRuns P T ((true, d) :: runs) cells = some (cells ++ List.replicate (21 - cells.length) true) := by
  rw [recoverRuns, hP.rxCells, hP.jitterParts]
  exact if_pos ⟨rfl, hd⟩

/-- A run of `n` whole cells is read as `n` cells, unless it is the final high one (R99). -/
theorem recoverRuns_wholeCells (hT : 0 < T) {L : Level} {n : Nat} {runs : List (Level × Nat)} {cells : List Level}
    (hn : 0 < n) (hlen : cells.length + n ≤ 21) (hfinal : L = true → 10 * n < 9 * (21 - cells.length)) :
    recoverRuns P T ((L, n * T) :: runs) cells =
      if cells.length + n = 21 then some (cells ++ List.replicate n L)
      else recoverRuns P T runs (cells ++ List.replicate n L) := by
  have hnotfinal : ¬(L = true ∧ 9 * (21 - cells.length) * T ≤ 10 * (n * T)) := by
    rintro ⟨hL, hle⟩
    rw [← Nat.mul_assoc] at hle
    have := Nat.le_of_mul_le_mul_right hle hT
    have := hfinal hL
    omega
  have hread : (2 * (n * T) + T) / (2 * T) = n := by
    rw [show 2 * (n * T) = 2 * T * n by ring, Nat.mul_add_div (by omega), Nat.div_eq_of_lt (by omega), Nat.add_zero]
  have htol : withinTol P (n * T) (n * T) = true := (withinTol_iff hP _ _).mpr ⟨by omega, by omega⟩
  rw [recoverRuns, hP.rxCells, hP.jitterParts, if_neg hnotfinal]
  simp only [hread, htol]
  rw [if_neg (by simp; omega), List.length_append, List.length_replicate]

end

/-! ## Short runs -/

/-- With `j` cells of the current run read, every run that one of the transitions to come ends has at most eight cells. Before
`k ≥ 1` more cells a high run of `n` passes for the last one when `n ≥ 9 * k` (assumption log 11). -/
def ShortRuns : Nat → List Bool → Prop
  | _, [] => True
  | j, false :: ts => ShortRuns (j + 1) ts
  | j, true :: ts => j ≤ 8 ∧ ShortRuns 1 ts

/-- A stretch of transitions too short to make a run of more than five cells. -/
theorem shortRuns_append_of_length {rest : List Bool} (hrest : ∀ i, i ≤ 5 → ShortRuns i rest) (ts : List Bool) :
    ∀ j, 1 ≤ j → j + ts.length ≤ 5 → ShortRuns j (ts ++ rest) := by
  induction ts with
  | nil => exact fun j _ hj => hrest j hj
  | cons t ts ih =>
    intro j hpos hj
    rw [List.length_cons] at hj
    cases t with
    | false => exact ih (j + 1) (by omega) (by omega)
    | true => exact ⟨by omega, ih 1 (Nat.le_refl 1) (by omega)⟩

/-- Five transitions of which one of the first two is 1: a run of at most five cells before them ends in time, and they leave
one of at most five. -/
theorem shortRuns_quintet {a b c d e : Bool} (hab : a = true ∨ b = true) {rest : List Bool}
    (hrest : ∀ i, i ≤ 5 → ShortRuns i rest) {j : Nat} (hj : j ≤ 5) : ShortRuns j ([a, b, c, d, e] ++ rest) := by
  cases a with
  | true => exact ⟨by omega, shortRuns_append_of_length hrest [b, c, d, e] 1 (by decide) (by simp)⟩
  | false =>
    obtain rfl : b = true := by simpa using hab
    exact ⟨by omega, shortRuns_append_of_length hrest [c, d, e] 1 (by decide) (by simp)⟩

/-- Every quintet of R68 has a 1 among its two highest bits. -/
theorem gcrTable_high_bits (n : BitVec 4) :
    (Config.gcrTable n).getLsbD 4 = true ∨ (Config.gcrTable n).getLsbD 3 = true := by
  have key : ∀ n : BitVec 4, (Config.gcrTable n).getLsbD 4 = true ∨ (Config.gcrTable n).getLsbD 3 = true := by decide
  exact key n

/-- The bits of a quintet, the highest first. -/
def quintetBits (q : BitVec 5) : List Bool := [q.getLsbD 4, q.getLsbD 3, q.getLsbD 2, q.getLsbD 1, q.getLsbD 0]

theorem transitionsOf_eq (raw : Raw) : transitionsOf raw = quintetBits (quintetOf raw 3) ++
    (quintetBits (quintetOf raw 2) ++ (quintetBits (quintetOf raw 1) ++ (quintetBits (quintetOf raw 0) ++ []))) := by
  simp [transitionsOf, quintetBits, quintetOf, List.range_succ]

theorem shortRuns_codeword (w : Frame) : ShortRuns 1 (transitionsOf (gcrEncodeWith Config.gcrTable w)) := by
  have hq := gcrEncodeWith_eq_iff (T := Config.gcrTable).mp (rfl : gcrEncodeWith Config.gcrTable w = _)
  have hstep : ∀ k, k < 4 → ∀ rest, (∀ i, i ≤ 5 → ShortRuns i rest) → ∀ i, i ≤ 5 →
      ShortRuns i (quintetBits (quintetOf (gcrEncodeWith Config.gcrTable w) k) ++ rest) := by
    intro k hk rest hrest i hi
    rw [← hq k hk]
    exact shortRuns_quintet (gcrTable_high_bits _) hrest hi
  rw [transitionsOf_eq]
  refine hstep 3 (by decide) _ (hstep 2 (by decide) _ (hstep 1 (by decide) _ (hstep 0 (by decide) _ ?_))) 1 (by decide)
  exact fun _ _ => trivial

/-! ## The loop on a nominal reply (R99, R108) -/

/-- Samples of `j + 1` cells of level `L`, of the cells that the transitions `ts` then lead to, and of the idle wire. -/
def replyFrom (T idle j : Nat) (L : Level) (ts : List Bool) : List Level :=
  List.replicate (j * T) L ++ (stretch T (ts.scanl Bool.xor L) ++ List.replicate idle true)

theorem replyFrom_nil (T idle j : Nat) (L : Level) :
    replyFrom T idle j L [] = List.replicate ((j + 1) * T) L ++ List.replicate idle true := by
  simp [replyFrom, stretch, Nat.add_mul, ← List.replicate_append_replicate]

theorem replyFrom_same (T idle j : Nat) (L : Level) (ts : List Bool) :
    replyFrom T idle j L (false :: ts) = replyFrom T idle (j + 1) L ts := by
  simp [replyFrom, stretch, Nat.add_mul, ← List.replicate_append_replicate]

theorem replyFrom_change (T idle j : Nat) (L : Level) (ts : List Bool) :
    replyFrom T idle j L (true :: ts) = List.replicate ((j + 1) * T) L ++ replyFrom T idle 0 (!L) ts := by
  simp [replyFrom, stretch, Nat.add_mul, ← List.replicate_append_replicate]

theorem replyFrom_head? {T idle : Nat} (hT : 0 < T) (L : Level) (ts : List Bool) :
    (replyFrom T idle 0 L ts).head? = some L := by
  cases ts <;> simp [replyFrom, stretch, List.head?_replicate, Nat.pos_iff_ne_zero.mp hT]

/-- The loop of R99 over such samples, by induction on the transitions: one that is 0 lengthens the run, one that is 1 ends it
as a run of whole cells. -/
theorem recoverRuns_replyFrom {P : Config.Build} (hP : P.Legal) {T : Nat} (hT : 0 < T) (idle : Nat) (ts : List Bool) :
    ∀ (j : Nat) (L : Level) (cells : List Level), cells.length + (j + 1) + ts.length = 21 → ShortRuns (j + 1) ts →
      recoverRuns P T (runsOf (replyFrom T idle j L ts)) cells =
        some (cells ++ (List.replicate j L ++ ts.scanl Bool.xor L)) := by
  induction ts with
  | nil =>
    intro j L cells hlen _
    rw [List.length_nil, Nat.add_zero] at hlen
    have hrem : 21 - cells.length = j + 1 := by omega
    have hcells : List.replicate j L ++ [].scanl Bool.xor L = List.replicate (j + 1) L := List.replicate_succ'.symm
    rw [replyFrom_nil, hcells]
    cases L with
    | true =>
      have hruns := runsOf_replicate_append (d := (j + 1) * T + idle) (L := true) (rest := []) (by positivity) (by simp)
      rw [List.replicate_append_replicate, ← List.append_nil (List.replicate _ _), hruns,
        recoverRuns_finalHigh hP (by rw [hrem, Nat.mul_assoc]; omega), hrem]
    | false =>
      rw [runsOf_replicate_append (by positivity) (by simp [List.head?_replicate]),
        recoverRuns_wholeCells hP hT j.add_one_pos hlen.le (by simp), if_pos hlen]
  | cons t ts ih =>
    intro j L cells hlen hshort
    cases t with
    | false =>
      rw [replyFrom_same, ih (j + 1) L cells (by simp at hlen; omega) hshort]
      simp [List.replicate_succ', List.scanl_cons]
    | true =>
      obtain ⟨hj, hshort⟩ := hshort
      rw [List.length_cons] at hlen
      rw [replyFrom_change, runsOf_replicate_append (by positivity) (by simp [replyFrom_head? hT]),
        recoverRuns_wholeCells hP hT j.add_one_pos (by omega) (fun _ => by omega), if_neg (by omega),
        ih 0 (!L) _ (by simp; omega) hshort]
      simp [List.replicate_succ', List.scanl_cons]

/-- R99 and R100 on a nominal reply: a symbol with short runs is recovered. -/
theorem answerOf_nominalReply {P : Config.Build} (hP : P.Legal) {raw : Raw} (hraw : ShortRuns 1 (transitionsOf raw))
    (r : Rate) : answerOf P (nominalReply P raw r) r = .cells raw := by
  have hreply : nominalReply P raw r =
      replyFrom (tcell P r) (window P r - 21 * tcell P r) 0 false (transitionsOf raw) := by
    rw [nominalReply_eq, symbolCells_eq_scanl, replyFrom, Nat.zero_mul, List.replicate_zero, List.nil_append]
  have hrecover : recover P (nominalReply P raw r) r = some (symbolCells raw) := by
    rw [recover, hreply, recoverRuns_replyFrom hP (tcell_pos hP r) _ _ 0 false [] (by simp [transitionsOf]) hraw,
      symbolCells_eq_scanl]
    rfl
  rw [answerOf, hrecover]
  exact congrArg RxAnswer.cells (deframe_symbolCells raw)

/-- Settles O41: the quintets of R68 keep the runs short, and a symbol with short runs is recovered. -/
theorem nominalReplyIsRecovered : Obligations.NominalReplyIsRecovered :=
  fun _ hP w r => answerOf_nominalReply hP (shortRuns_codeword w) r

end Sys2Proof.Machine
end

section
/-! PROOFS. Telemetry frames (R75 to R80): their fields as numbers, the period as an exact product, and the three
outcomes of DEC_TELEMETRY. -/

namespace Sys2Proof.Machine

/-! ## The fields of a frame as numbers (R75, R76) -/

theorem exponentOf_toNat (w : Frame) : (exponentOf w).toNat = w.toNat / 8192 := by
  rw [exponentOf, BitVec.extractLsb'_toNat, Nat.shiftRight_eq_div_pow]
  omega

theorem mantissaOf_toNat (w : Frame) : (mantissaOf w).toNat = w.toNat / 16 % 512 := by
  rw [mantissaOf, BitVec.extractLsb'_toNat, Nat.shiftRight_eq_div_pow]

theorem edtTypeOf_toNat (w : Frame) : (edtTypeOf w).toNat = w.toNat / 4096 := by
  rw [edtTypeOf, BitVec.extractLsb'_toNat, Nat.shiftRight_eq_div_pow]
  omega

theorem edtDataOf_toNat (w : Frame) : (edtDataOf w).toNat = w.toNat / 16 % 256 := by
  rw [edtDataOf, BitVec.extractLsb'_toNat, Nat.shiftRight_eq_div_pow]

/-! ## The period (R79) -/

/-- The largest mantissa with the largest exponent: 511 * 128. -/
theorem mantissa_mul_two_pow_exponent_le (w : Frame) : (mantissaOf w).toNat * 2 ^ (exponentOf w).toNat ≤ 65408 := by
  have hm := (mantissaOf w).isLt
  have he := (exponentOf w).isLt
  calc (mantissaOf w).toNat * 2 ^ (exponentOf w).toNat
      ≤ 511 * 2 ^ 7 := Nat.mul_le_mul (by omega) (Nat.pow_le_pow_right two_pos (by omega))
    _ = 65408 := rfl

/-- The product fits 16 bits, so the shift loses none of it. -/
theorem periodOf_toNat (w : Frame) : (periodOf w).toNat = (mantissaOf w).toNat * 2 ^ (exponentOf w).toNat := by
  have hle := mantissa_mul_two_pow_exponent_le w
  rw [periodOf, BitVec.toNat_shiftLeft, BitVec.toNat_setWidth_of_le (by decide), Nat.shiftLeft_eq,
    Nat.mod_eq_of_lt (by omega)]

/-- Bit 14 is the middle bit of the exponent. -/
theorem two_le_exponentOf {w : Frame} (h : w.getLsbD 14 = true) : 2 ≤ (exponentOf w).toNat := by
  have hbit : w.toNat / 16384 % 2 = 1 := by
    rw [BitVec.getLsbD, Nat.testBit_eq_decide_div_mod_eq] at h
    exact of_decide_eq_true h
  rw [exponentOf_toNat]
  omega

/-- Settles O29: the period is the product (`periodOf_toNat`), and bit 14 makes 4 a factor of it. -/
theorem periodNeverOverflows : Obligations.PeriodNeverOverflows := by
  intro w
  rw [periodOf_toNat]
  refine ⟨rfl, mantissa_mul_two_pow_exponent_le w, fun h => Nat.mod_eq_zero_of_dvd ?_⟩
  exact Dvd.dvd.mul_left (Nat.pow_dvd_pow 2 (two_le_exponentOf h)) _

/-! ## RESULT as a number (R15) -/

theorem erpmResult_periodOf (w : Frame) :
    erpmResult (periodOf w) = BitVec.ofNat 32 (65536 + w.toNat / 16 % 512 * 2 ^ (w.toNat / 8192)) := by
  rw [← mantissaOf_toNat, ← exponentOf_toNat, ← periodOf_toNat]
  apply BitVec.eq_of_toNat_eq
  simp only [erpmResult, toNat_append_eq_add, BitVec.toNat_ofNat]
  omega

theorem edtResult_of_frame (w : Frame) : edtResult (edtTypeOf w) (edtDataOf w) =
    BitVec.ofNat 32 (131072 + w.toNat / 4096 * 256 + w.toNat / 16 % 256) := by
  rw [← edtTypeOf_toNat, ← edtDataOf_toNat]
  apply BitVec.eq_of_toNat_eq
  simp only [edtResult, toNat_append_eq_add, BitVec.toNat_ofNat]
  omega

/-! ## The decoder (R77) -/

/-- The check of R77 is that of a command frame in Standard mode (R75, R80). -/
theorem crcOf_eq_crc4_iff {w : Frame} : crcOf w = crc4 (v12Of w) ↔ crcRight w .standard := by
  rw [← frameValid_iff_crcRight, frameValid, beq_iff_eq, crc4Tx]

section
variable {edtBit : Nat} {w : Frame}

theorem tlmDecodeWith_of_not_crcRight (h : ¬crcRight w .standard) : tlmDecodeWith edtBit w = none := by
  rw [tlmDecodeWith, if_pos (bne_iff_ne.mpr (mt crcOf_eq_crc4_iff.mp h))]

theorem tlmDecodeWith_of_crcRight (h : crcRight w .standard) : tlmDecodeWith edtBit w =
    some (if w.getLsbD edtBit then .erpm (periodOf w) else .edt (edtTypeOf w) (edtDataOf w)) := by
  rw [tlmDecodeWith, if_neg (by simpa using crcOf_eq_crc4_iff.mpr h), apply_ite some]

end

/-! ## The operation (R78) -/

/-- DEC_TELEMETRY in a build: the CRC decides first, then the discriminator bit of the build. -/
theorem decTelemetryIn_ends (P : Config.Build) (w : Frame) (s : State) :
    ∃ t, decTelemetryIn P w s = .next t ∧ TelemetryEnds P.edtBit w s t := by
  by_cases hcrc : crcRight w .standard
  · rw [decTelemetryIn, tlmDecodeWith_of_crcRight hcrc]
    cases hbit : w.getLsbD P.edtBit with
    | true =>
      refine ⟨_, rfl, s.complete_untouched _, absurd hcrc, fun _ _ => ?_, fun _ h => (nomatch hbit.symm.trans h)⟩
      rw [← erpmResult_periodOf]
      exact s.complete_completedWith _
    | false =>
      refine ⟨_, rfl, s.complete_untouched _, absurd hcrc, fun _ h => (nomatch hbit.symm.trans h), fun _ _ => ?_⟩
      rw [← edtResult_of_frame]
      exact s.complete_completedWith _
  · rw [decTelemetryIn, tlmDecodeWith_of_not_crcRight hcrc]
    exact ⟨_, rfl, s.raise_untouched _, fun _ => s.raise_raisedWith _, fun h => absurd h hcrc, fun h => absurd h hcrc⟩

/-- Settles O28, by `decTelemetryIn_ends` for the host's build, whose discriminator is bit 14, and for every other. -/
theorem decTelemetryResult : Obligations.DecTelemetryResult :=
  fun w s => ⟨decTelemetryIn_ends Config.build w s, fun P => decTelemetryIn_ends P w s⟩

end Sys2Proof.Machine
end

section
/-! PROOFS. An idle tick without a word (R84, R128, R129). -/

namespace Sys2Proof.Machine

theorem State.drive_of_lineIdle {s : State} (h : s.LineIdle) : s.drive false = s := by
  rw [State.drive, Bool.false_xor, ← h.lineOe, ← h.lineOut]

/-- In IDLE the line of R29 is the one that acceptance drives. -/
theorem State.Inv.lineIdle {s : State} (h : s.Inv) (hp : s.phase = .idle) : s.LineIdle where
  lineOe := (State.accepted_sameLine h hp).lineOe.symm
  lineOut := h.idle_level (.inl hp)

/-- Settles O10: without a word an idle tick drives the idle level, which the line of R29 has already. -/
theorem idleTickChangesNothing : Obligations.IdleTickChangesNothing := by
  intro s hready hinv hnone
  have hline : s.advance.LineIdle := hinv.advance.lineIdle hready.phase
  simp only [step_eq_stepIn, stepIn_ready hready, hnone, State.drive_of_lineIdle hline]
  rfl

end Sys2Proof.Machine
end

section
/-! PROOFS. Bit timing (R82) and the bands of CLASSIFY (R91 to R93). -/

namespace Sys2Proof.Machine

/-! ## The ratios of the timing table (R82) -/

@[simp] theorem t1h_k150 : t1h Config.build .k150 = 240 := by decide
@[simp] theorem t1h_k300 : t1h Config.build .k300 = 120 := by decide
@[simp] theorem t1h_k600 : t1h Config.build .k600 = 60 := by decide
@[simp] theorem t1h_k1200 : t1h Config.build .k1200 = 30 := by decide
@[simp] theorem t0h_k150 : t0h Config.build .k150 = 120 := by decide
@[simp] theorem t0h_k300 : t0h Config.build .k300 = 60 := by decide
@[simp] theorem t0h_k600 : t0h Config.build .k600 = 30 := by decide
@[simp] theorem t0h_k1200 : t0h Config.build .k1200 = 15 := by decide

section
variable {P : Config.Build} (hP : P.Legal) (r : Rate)
include hP

/-- Every rate divides the clock of a legal build. -/
theorem tbit_mul_bitrate : tbit P r * bitrate r = P.fClkHz := by
  have hrate : bitrate r ∣ 48000000 := by cases r <;> decide
  exact Nat.div_mul_cancel (hrate.trans (Nat.dvd_of_mod_eq_zero hP.fClkHz.2))

/-- So the eighths of a bit period are whole ticks. -/
theorem eight_dvd_tbit : 8 ∣ tbit P r := by
  rw [tbit_scaled hP]
  exact Dvd.dvd.mul_left (by cases r <;> decide) _

theorem four_mul_t1h : 4 * t1h P r = 3 * tbit P r := by
  have := eight_dvd_tbit hP r
  unfold t1h
  omega

theorem eight_mul_t0h : 8 * t0h P r = 3 * tbit P r := by
  have := eight_dvd_tbit hP r
  unfold t0h
  omega

theorem t1h_eq_two_mul_t0h : t1h P r = 2 * t0h P r := by
  have := four_mul_t1h hP r
  have := eight_mul_t0h hP r
  omega

end

/-- Settles O30: the table rate by rate, and the ratios of every legal build. -/
theorem bitTimingTable : Obligations.BitTimingTable :=
  ⟨by simp [bitrate], fun _ hP r =>
    ⟨tbit_mul_bitrate hP r, four_mul_t1h hP r, eight_mul_t0h hP r, t1h_eq_two_mul_t0h hP r⟩⟩

/-! ## The bands (R91 to R93) -/

/-- The tolerance of R91 as a band in whole ticks, ends included. -/
theorem withinTol_iff_band {P : Config.Build} (hP : P.Legal) (d T : Nat) :
    withinTol P d T = true ↔ (9 * T + 9) / 10 ≤ d ∧ d ≤ 11 * T / 10 := by
  rw [withinTol_iff hP]
  omega

/-- The band of a 0 ends below that of a 1, whose high time is twice as long. -/
theorem band_zero_below_one {P : Config.Build} (hP : P.Legal) (r : Rate) :
    11 * t0h P r / 10 < (9 * t1h P r + 9) / 10 := by
  have hpos : 0 < t0h P r := highTime_pos hP r false
  rw [t1h_eq_two_mul_t0h hP]
  omega

/-- CLASSIFY in a legal build: the order of its two tests does not matter, because no high time is in both bands. -/
theorem classifyIn_ends {P : Config.Build} (hP : P.Legal) (h : BitVec 16) (s : State) :
    ∃ t, classifyIn P h s = .next t ∧
      ClassifyEnds ((9 * t0h P s.rate + 9) / 10) (11 * t0h P s.rate / 10) ((9 * t1h P s.rate + 9) / 10)
        (11 * t1h P s.rate / 10) h s t := by
  have hbelow := band_zero_below_one hP s.rate
  simp only [classifyIn, withinTol_iff_band hP]
  split
  case isTrue hone =>
    exact ⟨_, rfl, s.complete_untouched _, fun hzero => by omega, fun _ => s.complete_completedWith _,
      fun hno => absurd hone hno.2⟩
  case isFalse hone =>
    split
    case isTrue hzero =>
      exact ⟨_, rfl, s.complete_untouched _, fun _ => s.complete_completedWith _, fun h1 => absurd h1 hone,
        fun hno => absurd hzero hno.1⟩
    case isFalse hzero =>
      exact ⟨_, rfl, s.raise_untouched _, fun h0 => absurd h0 hzero, fun h1 => absurd h1 hone,
        fun _ => s.raise_raisedWith _⟩

/-- Settles O36, by `classifyIn_ends`: the bands of the host's build are the general ones at its high times. -/
theorem classifyBands : Obligations.ClassifyBands := by
  intro h s
  refine ⟨?_, fun P hP => classifyIn_ends hP h s⟩
  obtain ⟨t, ht, hends⟩ := classifyIn_ends build_legal h s
  refine ⟨t, ht, ?_⟩
  cases hr : s.rate <;> simpa [hr] using hends

end Sys2Proof.Machine
end

section
/-! PROOFS. The waveform of TX (R86, R87): its level bit by bit, and its segments laid end to end. -/

namespace Sys2Proof.Machine

/-! ## The level at a tick (R87) -/

/-- Tick `i` of the `j`-th bit period is high while `i` is below the high time of bit `15 - j`. -/
theorem txLevel_in_bit (P : Config.Build) (f : Frame) (r : Rate) {i j : Nat} (hj : j < 16) (hi : i < tbit P r) :
    txLevel P f r (j * tbit P r + i) = decide (i < highTime P r (f.getLsbD (15 - j))) := by
  have hdiv : (j * tbit P r + i) / tbit P r = j := by
    rw [Nat.add_comm, Nat.add_mul_div_right _ _ (by omega), Nat.div_eq_of_lt hi, Nat.zero_add]
  have hlt : j * tbit P r + i < 16 * tbit P r := calc
    j * tbit P r + i < (j + 1) * tbit P r := by rw [Nat.succ_mul]; omega
    _ ≤ 16 * tbit P r := Nat.mul_le_mul_right _ hj
  simp [txLevel, hlt, hdiv, Nat.mul_add_mod_of_lt hi]

theorem txLevel_after_bits (P : Config.Build) (f : Frame) (r : Rate) {k : Nat} (hk : 16 * tbit P r ≤ k) :
    txLevel P f r k = false := by
  simp [txLevel, Nat.not_lt.mpr hk]

/-! ## The segments (R87, R90) -/

/-- A row of `n * T` ticks as `n` periods of `T`. -/
theorem range_mul_eq_flatMap (n T : Nat) :
    List.range (n * T) = (List.range n).flatMap fun j => (List.range T).map fun i => j * T + i := by
  induction n with
  | zero => simp
  | succ n ih => rw [Nat.succ_mul, List.range_add, ih, List.range_succ, List.flatMap_append, List.flatMap_singleton]

/-- `T` ticks of which the first `a` are high. -/
theorem map_lt_range {a T : Nat} (h : a ≤ T) :
    (List.range T).map (fun i => decide (i < a)) = List.replicate a true ++ List.replicate (T - a) false := by
  obtain ⟨b, rfl⟩ := Nat.exists_eq_add_of_le h
  rw [List.range_add, List.map_append, List.map_map, Nat.add_sub_cancel_left]
  congr 1 <;> simp [List.eq_replicate_iff]

/-- The segments of a bit are the levels of its period. -/
theorem bitSegments_levels {P : Config.Build} (hP : P.Legal) (f : Frame) (r : Rate) {j : Nat} (hj : j < 16) :
    ((bitSegments P r (f.getLsbD (15 - j))).flatMap fun g => List.replicate g.2 g.1) =
      (List.range (tbit P r)).map fun i => txLevel P f r (j * tbit P r + i) := by
  have hlevels := List.map_congr_left fun i hi => txLevel_in_bit P f r hj (List.mem_range.mp hi)
  rw [hlevels, map_lt_range (highTime_lt_tbit hP r _).le]
  simp [bitSegments]

/-- Settles O34: the ticks split into the 16 bit periods, each its two segments (`bitSegments_levels`), and the trailing
period, which is low. -/
theorem txSegmentsAreTheWave : Obligations.TxSegmentsAreTheWave := by
  intro P hP f r
  have hbits : ((List.range 16).flatMap fun j => bitSegments P r (f.getLsbD (15 - j))).flatMap
      (fun g => List.replicate g.2 g.1) = (List.range (16 * tbit P r)).map (txLevel P f r) := by
    rw [List.flatMap_assoc, range_mul_eq_flatMap, List.map_flatMap]
    refine List.flatMap_congr fun j hj => ?_
    rw [bitSegments_levels hP f r (List.mem_range.mp hj), List.map_map]
    rfl
  have htrail : List.replicate P.tTrail false =
      (List.range P.tTrail).map fun i => txLevel P f r (16 * tbit P r + i) := by
    simp [txLevel_after_bits]
  rw [txSegments, List.flatMap_append, hbits, List.flatMap_singleton, txTicks, List.range_add, List.map_append,
    List.map_map, htrail]
  rfl

end Sys2Proof.Machine
end

section
/-! PROOFS. TX on the wire (R85 to R90): after the accepting step, tick `k` of the driver puts the level of the closed form on
the line and goes on to tick `k + 1`, or completes with the frame. -/

namespace Sys2Proof.Machine

/-! ## The place of a transmission (R86) -/

/-- The coming tick is tick `k` of the transmission: tick `cnt` of the period of bit `bit_idx`, or of the trailing period. -/
def State.TxAt (P : Config.Build) (k : Nat) (s : State) : Prop :=
  (s.phase = .tx ∧ s.cnt < tbit P s.rate ∧ k = (15 - s.bitIdx.toNat) * tbit P s.rate + s.cnt) ∨
    (s.phase = .trail ∧ s.cnt < P.tTrail ∧ k = 16 * tbit P s.rate + s.cnt)

theorem State.TxAt.lt_txTicks {P : Config.Build} {k : Nat} {s : State} (h : s.TxAt P k) : k < txTicks P s.rate := by
  unfold txTicks
  obtain ⟨-, hc, rfl⟩ | ⟨-, hc, rfl⟩ := h
  · have : (15 - s.bitIdx.toNat) * tbit P s.rate ≤ 15 * tbit P s.rate := Nat.mul_le_mul_right _ (Nat.sub_le _ _)
    omega
  · omega

theorem State.TxAt.phase {P : Config.Build} {k : Nat} {s : State} (h : s.TxAt P k) : s.phase = .tx ∨ s.phase = .trail :=
  h.imp And.left And.left

/-- What tick `k` of a transmission does to the line and to its place. -/
structure TxTick (P : Config.Build) (k : Nat) (s t : State) : Prop where
  lineOut : t.lineOut = (txLevel P s.shreg s.rate k ^^ s.mode.bit)
  place   : t.TxAt P (k + 1) ∨ (k + 1 = txTicks P s.rate ∧ t.busy = false)

/-- The line in a tick of phase TX. -/
theorem State.tickTx_lineOut (P : Config.Build) (s : State) :
    (s.tickTx P).lineOut = (decide (s.cnt < highTime P s.rate s.txBit) ^^ s.mode.bit) := by
  rcases s.tickTx_cases P with ⟨-, h⟩ | ⟨-, -, h⟩ | ⟨-, -, -, h⟩ | ⟨-, -, -, h⟩ <;> rw [h] <;> rfl

theorem State.tickTx_txTick {P : Config.Build} {k : Nat} {s : State} (hp : s.phase = .tx) (hc : s.cnt < tbit P s.rate)
    (hk : k = (15 - s.bitIdx.toNat) * tbit P s.rate + s.cnt) : TxTick P k s (s.tickTx P) where
  lineOut := by
    have hbit : 15 - (15 - s.bitIdx.toNat) = s.bitIdx.toNat := by omega
    rw [s.tickTx_lineOut, hk, txLevel_in_bit P _ _ (by omega) hc, hbit, State.txBit]
  place := by
    have hlast (he : s.cnt + 1 = tbit P s.rate) (hb : s.bitIdx = 0#4) : k + 1 = 16 * tbit P s.rate := by
      have hzero : s.bitIdx.toNat = 0 := by rw [hb]; rfl
      rw [hk, hzero]
      omega
    rcases s.tickTx_cases P with ⟨hn, h⟩ | ⟨he, hb, h⟩ | ⟨he, hb, hz, h⟩ | ⟨he, hb, hz, h⟩ <;> rw [h]
    · -- within the bit
      exact .inl (.inl ⟨hp, Nat.lt_of_le_of_ne hc hn, by rw [hk]; rfl⟩)
    · -- the next bit
      have hnext : 15 - (s.bitIdx - 1#4).toNat = (15 - s.bitIdx.toNat) + 1 := by bv_omega
      refine .inl (.inl ⟨hp, Nat.zero_lt_of_lt hc, ?_⟩)
      simp only [hnext, Nat.succ_mul, State.drive_rate]
      omega
    · -- the trailing period
      exact .inl (.inr ⟨rfl, Nat.pos_of_ne_zero hz, hlast he hb⟩)
    · -- no trailing period
      exact .inr ⟨by rw [txTicks, hz, hlast he hb, Nat.add_zero], rfl⟩

theorem State.tickTrail_txTick {P : Config.Build} {k : Nat} {s : State} (hp : s.phase = .trail) (hc : s.cnt < P.tTrail)
    (hk : k = 16 * tbit P s.rate + s.cnt) : TxTick P k s (s.tickTrail P) := by
  have hlow : txLevel P s.shreg s.rate k = false := txLevel_after_bits P _ _ (by omega)
  rcases s.tickTrail_cases P with ⟨hn, h⟩ | ⟨he, h⟩ <;> rw [h]
  · exact ⟨by rw [hlow]; rfl, .inl (.inr ⟨hp, Nat.lt_of_le_of_ne hc hn, by rw [hk]; rfl⟩)⟩
  · exact ⟨by rw [hlow]; rfl, .inr ⟨by rw [txTicks, hk, ← he]; rfl, rfl⟩⟩

/-! ## A transmission in progress -/

/-- The frame `f` is being sent at rate `r` in mode `m`, and the coming tick is tick `k` of the transmission. -/
structure Sending (P : Config.Build) (f : Frame) (r : Rate) (m : Mode) (k : Nat) (s : State) : Prop where
  place   : s.TxAt P k
  shreg   : s.shreg = f
  rate    : s.rate = r
  mode    : s.mode = m
  busy    : s.busy = true
  done    : s.done = false
  noReset : s.NoReset

section
variable {P : Config.Build} {f : Frame} {r : Rate} {m : Mode} {k : Nat}

theorem Sending.stepIn_txTick {s : State} (h : Sending P f r m k s) :
    ∃ t, stepIn P s = .next t ∧ TxTick P k s.advance t := by
  have hrst := State.noReset_pins h.noReset
  obtain ⟨hp, hc, hk⟩ | ⟨hp, hc, hk⟩ := h.place
  · exact ⟨_, stepIn_tx hrst h.busy hp, State.tickTx_txTick hp hc hk⟩
  · exact ⟨_, stepIn_trail hrst h.busy hp, State.tickTrail_txTick hp hc hk⟩

/-- One tick of a transmission: the level of R87 on the wire, then the next tick, or completion after the last. -/
theorem Sending.step_cases {s : State} (h : Sending P f r m k s) :
    ∃ t, stepIn P s = .next t ∧ t.driven = some (txLevel P f r k ^^ m.bit) ∧
      (Sending P f r m (k + 1) t ∨ (k + 1 = txTicks P r ∧ t.CompletedWith (f.setWidth 32))) := by
  obtain ⟨t, ht, hline, hplace⟩ := h.stepIn_txTick
  obtain ⟨-, e⟩ := stepIn_transmitEffect (State.noReset_pins h.noReset) h.place.phase ht
  obtain ⟨-, rfl, rfl, rfl, hbusy, hdone, hnr⟩ := h
  refine ⟨t, ht, by rw [State.driven_of_oe e.lineOe, hline]; rfl, ?_⟩
  obtain hnext | ⟨hlast, hidle⟩ := hplace
  · obtain ⟨hb, hst, -⟩ | hend := e.goesOn_or_completes
    · exact .inl ⟨hnext, e.shreg, e.config.rate, e.config.mode, hb.trans hbusy, hst.done.trans hdone,
        State.noReset_tail hnr e.inputs.env⟩
    · simpa [hend.phase] using hnext.phase
  · obtain ⟨hb, -⟩ | hend := e.goesOn_or_completes
    · simp [hb, hbusy] at hidle
    · exact .inr ⟨hlast, hend⟩

/-- After the step that accepts TX comes tick 0 of bit 15. -/
theorem sending_of_accepts (hP : P.Legal) {s : State} (h : s.Accepts (.tx f)) (hnr : s.NoReset)
    (hv : frameValid s.mode f = true) : ∃ t, stepIn P s = .next t ∧ Sending P f s.rate s.mode 0 t := by
  rw [stepIn_of_accepts P h, execIn_tx, execTx_of_frameValid (s := s.accepted) hv]
  exact ⟨_, rfl, .inl ⟨rfl, tbit_pos hP s.rate, by simp⟩, rfl, rfl, rfl, rfl, rfl, State.noReset_tail hnr rfl⟩

/-- By induction on `k`: the driver comes to each of its ticks. -/
theorem runTicks_sending (hP : P.Legal) {s : State} (h : s.Accepts (.tx f)) (hnr : s.NoReset)
    (hv : frameValid s.mode f = true) (hk : k < txTicks P s.rate) :
    ∃ t, runTicks P (k + 1) s = .next t ∧ Sending P f s.rate s.mode k t := by
  induction k with
  | zero =>
    obtain ⟨t, ht, hsend⟩ := sending_of_accepts hP h hnr hv
    exact ⟨t, (runTicks_succ_next rfl).trans ht, hsend⟩
  | succ k ih =>
    obtain ⟨t, ht, hsend⟩ := ih (by omega)
    obtain ⟨u, hu, -, hnext | ⟨hlast, -⟩⟩ := hsend.step_cases
    · exact ⟨u, (runTicks_succ_next ht).trans hu, hnext⟩
    · omega

end

/-- Settles O33: the driver comes to tick `k` (`runTicks_sending`), which does what R87 says (`Sending.step_cases`). -/
theorem txPutsFrameOnTheWire : Obligations.TxPutsFrameOnTheWire := by
  intro P hP s f h hnr hv k hk
  obtain ⟨t, ht, hsend⟩ := runTicks_sending hP h hnr hv hk
  obtain ⟨u, hu, hdriven, hcases⟩ := hsend.step_cases
  refine ⟨u, (runTicks_succ_next ht).trans hu, hdriven, ?_⟩
  obtain hnext | ⟨hlast, hend⟩ := hcases
  · have hlt : k + 1 < txTicks P s.rate := hnext.rate ▸ hnext.place.lt_txTicks
    exact ⟨fun _ => ⟨hnext.busy, hnext.done⟩, fun heq => absurd heq hlt.ne⟩
  · exact ⟨fun hlt => absurd hlast hlt.ne, fun _ => hend⟩

end Sys2Proof.Machine
end

section
/-! PROOFS. RX at acceptance (R94, R106), the reply's times in ticks (R95, R96), and how RX ends: the counters, the fault and
the status of each outcome (R102 to R105), and the chain of outcomes of R101. -/

namespace Sys2Proof.Machine

/-! ## Acceptance (R94, R106) -/

theorem execRx_standard {s : State} (h : s.mode = .standard) : execRx s = .next (s.complete 0#32) := by
  rw [execRx, h]

theorem execRx_bidirectional {s : State} (h : s.mode = .bidirectional) :
    execRx s = .next { s.release with phase := .switch, cnt := 0, busy := true } := by
  rw [execRx, h]

/-- Settles O37: the mode decides. -/
theorem rxAcceptance : Obligations.RxAcceptance := by
  intro s
  cases hm : s.mode with
  | standard =>
    refine ⟨_, execRx_standard hm, fun _ => ?_, (nomatch ·)⟩
    exact ⟨s.complete_completedWith _, s.complete_untouched _⟩
  | bidirectional =>
    refine ⟨_, execRx_bidirectional hm, (nomatch ·), fun _ => ?_⟩
    exact ⟨rfl, rfl, rfl, rfl, rfl, rfl, rfl, rfl, rfl, ⟨rfl, rfl, rfl, rfl⟩, ⟨rfl, rfl, rfl⟩, ⟨rfl, rfl, rfl⟩, rfl, rfl⟩

/-! ## The reply's times (R95, R96) -/

/-- R95: the reply cell is 4/5 of the bit period, in whole ticks. -/
theorem five_mul_tcell {P : Config.Build} (hP : P.Legal) (r : Rate) : 5 * tcell P r = 4 * tbit P r := by
  have hfive : 5 ∣ tbit P r := by
    rw [tbit_scaled hP]
    exact Dvd.dvd.mul_left (by cases r <;> decide) _
  rw [tcell, hP.rxRateNum, hP.rxRateDen]
  omega

/-- Settles O31: the table rate by rate, and the formulas of every legal build. -/
theorem replyTimingTable : Obligations.ReplyTimingTable :=
  ⟨by simp, fun _ hP r => ⟨five_mul_tcell hP r, window_eq hP r⟩⟩

/-! ## The end of RX (R94, R102 to R105) -/

/-- What stays while RX is under way (R28, R39): `u` keeps what `s` has of CFG, of the validator and of `owned`. -/
structure KeptInRx (s u : State) : Prop where
  config    : SameConfig s u
  validator : SameValidator s u
  owned     : u.owned = s.owned

theorem KeptInRx.refl (s : State) : KeptInRx s s := ⟨⟨rfl, rfl, rfl, rfl⟩, ⟨rfl, rfl, rfl⟩, rfl⟩

/-- A tick that writes the phase, the count, the samples and the inputs at most. -/
theorem KeptInRx.tick {s u : State} (h : KeptInRx s u) (p : Phase) (c : Nat) (l : List Level) :
    KeptInRx s { u.advance with phase := p, cnt := c, samples := l } :=
  ⟨⟨h.config.rate, h.config.mode, h.config.edtAdv, h.config.thresh⟩,
    ⟨h.validator.crcFail, h.validator.discard, h.validator.fault⟩, h.owned⟩

/-- What each outcome writes: an RX under way in `u` ends as one of `s`. -/
theorem State.finishRx_rxEnds {s u : State} (h : KeptInRx s u) (o : RxOutcome) : RxEnds s (u.finishRx o) o := by
  obtain ⟨hc', -, -, ho', -, -, -, hoe, hout⟩ := u.finishRx_frame o
  obtain ⟨hc, hv, ho⟩ := h
  refine ⟨⟨hc'.rate.trans hc.rate, hc'.mode.trans hc.mode, hc'.edtAdv.trans hc.edtAdv, hc'.thresh.trans hc.thresh⟩,
    ho'.trans ho, hoe, hout.trans (by rw [hc.mode]), ?_⟩
  have hdiscard : (satIncr u.discard).toNat = min (s.discard.toNat + 1) 65535 := hv.discard ▸ satIncr_toNat _
  have hcrc : (satIncr u.crcFail).toNat = min (s.crcFail.toNat + 1) 255 := hv.crcFail ▸ satIncr_toNat _
  cases o with
  | timeout => exact ⟨State.raise_raisedWith _ _, hv.crcFail, hv.discard, hv.fault⟩
  | framingError => exact ⟨⟨rfl, rfl, rfl, rfl, rfl, rfl⟩, hv.crcFail, hdiscard, hv.fault⟩
  | gcrFraming => exact ⟨⟨rfl, rfl, rfl, rfl, rfl, rfl⟩, hv.crcFail, hdiscard, hv.fault⟩
  | crcMismatch =>
    refine ⟨⟨rfl, rfl, rfl, rfl, rfl, rfl⟩, hcrc, hdiscard, ?_⟩
    rw [← hv.fault, ← hc.thresh, ← tripsFault_iff, ← Bool.or_eq_true]
    rfl
  | valid d => exact ⟨State.complete_completedWith _ _, rfl, hv.discard, hv.fault⟩

section
variable {P : Config.Build} {s u : State} (hkept : KeptInRx s u) (hrst : u.pins.rst = false) (hb : u.busy = true)
include hkept hrst hb

/-- The tick that fills the window ends RX with the outcome of its samples (R97, R101). -/
theorem stepIn_capture_full (hp : u.phase = .capture) (hc : u.cnt + 1 = window P u.rate) :
    ∃ t, stepIn P u = .next t ∧ RxEnds s t (outcomeOf P (answerOf P (u.samples ++ [u.pins.lineIn]) u.rate)) := by
  refine ⟨_, stepIn_capture hrst hb hp, ?_⟩
  obtain ⟨hn, -⟩ | ⟨-, h⟩ := u.advance.tickCapture_cases P u.pins.lineIn
  · exact absurd hc hn
  · rw [h]
    exact State.finishRx_rxEnds (hkept.tick _ _ _) _

/-- The last waiting tick without an edge ends RX with `Timeout` (R98). -/
theorem stepIn_listen_timeout (hp : u.phase = .listen) (hc : u.cnt + 1 = P.tRxTimeout) (hl : u.pins.lineIn = true) :
    ∃ t, stepIn P u = .next t ∧ RxEnds s t .timeout := by
  refine ⟨_, stepIn_listen hrst hb hp, ?_⟩
  obtain ⟨hlow, -⟩ | ⟨-, hn, -⟩ | ⟨-, -, h⟩ := u.advance.tickListen_cases P u.pins.lineIn
  · simp [hl] at hlow
  · exact absurd hc hn
  · rw [h]
    exact State.finishRx_rxEnds (hkept.tick _ _ _) _

end

/-! ## The chain of outcomes (R101) -/

section
variable {P : Config.Build} {raw : Raw} {x : Frame}

theorem outcomeOf_of_gcrFraming (h : gcrDecodeWith P.gcrTable raw = none) : outcomeOf P (.cells raw) = .gcrFraming := by
  simp only [outcomeOf, h]

theorem outcomeOf_of_crcMismatch (hx : gcrDecodeWith P.gcrTable raw = some x) (h : tlmDecodeWith P.edtBit x = none) :
    outcomeOf P (.cells raw) = .crcMismatch := by
  simp only [outcomeOf, hx, h]

theorem outcomeOf_of_valid {d : Telemetry} (hx : gcrDecodeWith P.gcrTable raw = some x)
    (h : tlmDecodeWith P.edtBit x = some d) : outcomeOf P (.cells raw) = .valid d := by
  simp only [outcomeOf, hx, h]

end

theorem outcomeChain_of_legal {P : Config.Build} (hP : P.Legal) : OutcomeChain P := by
  refine ⟨rfl, rfl, fun samples r h => by rw [answerOf, h]; rfl, fun samples cells r h => by rw [answerOf, h],
    fun raw => ⟨fun ⟨k, hk, hbad⟩ => outcomeOf_of_gcrFraming (gcrDecodeWith_eq_none hk hbad), fun x hx => ?_⟩⟩
  have hframe : gcrDecodeWith P.gcrTable raw = some x :=
    (gcrDecodeWith_eq_some_iff_encode hP.gcrTable).mpr (gcrEncodeWith_eq_iff.mpr hx)
  refine ⟨fun hcrc => outcomeOf_of_crcMismatch hframe (tlmDecodeWith_of_not_crcRight hcrc),
    fun hcrc hbit => ⟨_, outcomeOf_of_valid hframe (tlmDecodeWith_of_crcRight hcrc), ?_⟩,
    fun hcrc hbit => ⟨_, outcomeOf_of_valid hframe (tlmDecodeWith_of_crcRight hcrc), ?_⟩⟩
  · rw [hbit]
    exact erpmResult_periodOf x
  · rw [hbit]
    exact edtResult_of_frame x

/-- Settles O38: the last tick is `finishRx`, whose outcomes count as `State.finishRx_rxEnds` says, and the chain is that of
the two decoders. -/
theorem rxCompletionCounts : Obligations.RxCompletionCounts :=
  ⟨fun _ s hrst hb => ⟨stepIn_capture_full (.refl s) hrst hb, stepIn_listen_timeout (.refl s) hrst hb⟩,
    fun _ => outcomeChain_of_legal⟩

end Sys2Proof.Machine
end

section
/-! PROOFS. The recovery of cells (R99, R100): the runs of the samples are maximal, the loop over them gives what the relation
`Recovered` gives, and de-framing puts the cells into the bits of a symbol. -/

namespace Sys2Proof.Machine

/-! ## Runs (R99) -/

/-- The runs laid end to end. -/
theorem runsOf_flatMap_replicate (l : List Level) : ((runsOf l).flatMap fun g => List.replicate g.2 g.1) = l := by
  induction l with
  | nil => rfl
  | cons x xs ih =>
    obtain ⟨hxs, hr⟩ | ⟨d, rest, hxs, hr⟩ | ⟨y, d, rest, -, hxs, hr⟩ := runsOf_cons x xs <;>
      rw [hr] <;> conv_rhs => rw [← ih, hxs]
    · rfl
    · simp [List.replicate_succ]
    · simp

theorem one_le_of_mem_runsOf {l : List Level} : ∀ g ∈ runsOf l, 1 ≤ g.2 := by
  induction l with
  | nil => simp [runsOf]
  | cons x xs ih =>
    obtain ⟨-, hr⟩ | ⟨d, rest, hxs, hr⟩ | ⟨y, d, rest, -, hxs, hr⟩ := runsOf_cons x xs <;> rw [hr]
    · simp
    · rw [hxs, List.forall_mem_cons] at ih
      exact List.forall_mem_cons.mpr ⟨Nat.le_add_left 1 d, ih.2⟩
    · exact List.forall_mem_cons.mpr ⟨le_rfl, hxs ▸ ih⟩

/-- Neighbouring runs differ in level. -/
theorem runsOf_isChain_ne (l : List Level) : (runsOf l).IsChain fun g h => g.1 ≠ h.1 := by
  induction l with
  | nil => exact .nil
  | cons x xs ih =>
    obtain ⟨-, hr⟩ | ⟨d, rest, hxs, hr⟩ | ⟨y, d, rest, hxy, hxs, hr⟩ := runsOf_cons x xs <;> rw [hr]
    · exact .singleton _
    · rw [hxs] at ih
      cases ih with
      | singleton => exact .singleton _
      | cons_cons hne htail => exact .cons_cons hne htail
    · exact .cons_cons hxy (hxs ▸ ih)

/-- Settles O42, by induction on the samples: a further sample lengthens the first run or begins one of another level. -/
theorem runsAreMaximal : Obligations.RunsAreMaximal := by
  refine fun l => ⟨runsOf_flatMap_replicate l, one_le_of_mem_runsOf, fun before after g h hl => ?_⟩
  have hchain := runsOf_isChain_ne l
  rw [hl] at hchain
  exact (List.isChain_cons_cons.mp hchain.right_of_append).1

/-! ## Reading a run as cells (R99) -/

/-- The number of cells that the loop computes is the nearest. -/
theorem div_eq_iff_nearest {T : Nat} (hT : 0 < T) (d n : Nat) :
    (2 * d + T) / (2 * T) = n ↔ 2 * (n * T) ≤ 2 * d + T ∧ 2 * d + T < 2 * (n * T) + 2 * T := by
  rw [Nat.div_eq_iff (by omega), Nat.mul_left_comm]
  omega

section
variable {P : Config.Build} (hP : P.Legal) {T : Nat} (hT : 0 < T)
include hP hT

/-- A run is read as `n` of the cells still to read exactly when `n` is the loop's number and passes its three tests. -/
theorem readsAs_iff {rem d n : Nat} : ReadsAs T d n ∧ n ≤ rem ↔
    (2 * d + T) / (2 * T) = n ∧ ¬(n = 0 ∨ rem < n ∨ withinTol P d (n * T) = false) := by
  have htol : ¬withinTol P d (n * T) = false ↔ 10 * d ≤ 11 * (n * T) ∧ 9 * (n * T) ≤ 10 * d := by
    rw [Bool.not_eq_false, withinTol_iff hP]
  rw [div_eq_iff_nearest hT, not_or, not_or, htol]
  constructor
  · rintro ⟨⟨hone, hnear, hshort, hlong⟩, hle⟩
    exact ⟨hnear, by omega, by omega, hlong, hshort⟩
  · rintro ⟨hnear, hzero, hle, hlong, hshort⟩
    exact ⟨⟨by omega, hnear, hshort, hlong⟩, by omega⟩

/-! ## The loop, run by run (R99) -/

variable {L : Level} {d n : Nat} {runs : List (Level × Nat)} {cells : List Level}

theorem recoverRuns_of_readsAs (h : ¬FinalHigh T (21 - cells.length) (L, d)) (hn : ReadsAs T d n)
    (hlen : cells.length + n ≤ 21) : recoverRuns P T ((L, d) :: runs) cells =
      if cells.length + n = 21 then some (cells ++ List.replicate n L)
      else recoverRuns P T runs (cells ++ List.replicate n L) := by
  obtain ⟨hdiv, hpass⟩ := (readsAs_iff hP hT (rem := 21 - cells.length)).mp ⟨hn, by omega⟩
  rw [FinalHigh, ← Nat.mul_assoc] at h
  rw [recoverRuns, hP.rxCells, hP.jitterParts, if_neg h]
  simp only [hdiv, if_neg hpass, List.length_append, List.length_replicate]

theorem recoverRuns_of_unread (h : ¬FinalHigh T (21 - cells.length) (L, d))
    (hn : ∀ n ≤ 21 - cells.length, ¬ReadsAs T d n) : recoverRuns P T ((L, d) :: runs) cells = none := by
  have hread := fun hpass => (readsAs_iff hP hT (rem := 21 - cells.length) (d := d)).mpr ⟨rfl, hpass⟩
  rw [FinalHigh, ← Nat.mul_assoc] at h
  rw [recoverRuns, hP.rxCells, hP.jitterParts, if_neg h,
    if_pos (not_not.mp fun hpass => hn _ (hread hpass).2 (hread hpass).1)]

end

/-! ## The relation, run by run (R99) -/

section
variable {T rem n : Nat} {g : Level × Nat} {runs : List (Level × Nat)} {cells : List Level}

theorem ReadsAs.unique {T d m n : Nat} (hm : ReadsAs T d m) (hn : ReadsAs T d n) : m = n := by
  have hT : 0 < T := by
    have := hm.nearest
    omega
  rw [← (div_eq_iff_nearest hT d m).mpr hm.nearest, (div_eq_iff_nearest hT d n).mpr hn.nearest]

theorem recovered_iff_of_finalHigh (h : FinalHigh T rem g) :
    Recovered T rem (g :: runs) cells ↔ cells = List.replicate rem true := by
  constructor
  · rintro (_ | ⟨hno, -⟩ | ⟨hno, -⟩)
    · rfl
    · exact absurd h hno
    · exact absurd h hno
  · rintro rfl
    exact .fill h

theorem recovered_iff_of_readsAs_all (h : ¬FinalHigh T rem g) (hn : ReadsAs T g.2 rem) :
    Recovered T rem (g :: runs) cells ↔ cells = List.replicate rem g.1 := by
  constructor
  · rintro (hfinal | - | ⟨-, hm, hlt, -⟩)
    · exact absurd hfinal h
    · rfl
    · exact absurd (hm.unique hn) hlt.ne
  · rintro rfl
    exact .last h hn

theorem recovered_iff_of_readsAs_fewer (h : ¬FinalHigh T rem g) (hn : ReadsAs T g.2 n) (hlt : n < rem) :
    Recovered T rem (g :: runs) cells ↔
      ∃ later, Recovered T (rem - n) runs later ∧ cells = List.replicate n g.1 ++ later := by
  constructor
  · rintro (hfinal | ⟨-, hm⟩ | ⟨-, hm, -, hlater⟩)
    · exact absurd hfinal h
    · exact absurd (hn.unique hm) hlt.ne
    · obtain rfl := hm.unique hn
      exact ⟨_, hlater, rfl⟩
  · rintro ⟨later, hlater, rfl⟩
    exact .more h hn hlt hlater

theorem not_recovered_of_unread (h : ¬FinalHigh T rem g) (hn : ∀ n ≤ rem, ¬ReadsAs T g.2 n) :
    ¬Recovered T rem (g :: runs) cells := by
  rintro (hfinal | ⟨-, hm⟩ | ⟨-, hm, hlt, -⟩)
  · exact h hfinal
  · exact hn _ le_rfl hm
  · exact hn _ hlt.le hm

theorem Recovered.length (h : Recovered T rem runs cells) : cells.length = rem := by
  induction h with
  | fill => simp
  | last => simp
  | more _ _ hlt _ ih =>
    rw [List.length_append, List.length_replicate, ih]
    omega

/-- The first cell has the level of the first run, if that is low. -/
theorem Recovered.head?_low {d : Nat} (h : Recovered T rem ((false, d) :: runs) cells) (hrem : 0 < rem) :
    cells.head? = some false := by
  obtain hfinal | - | ⟨-, hn, -⟩ := h
  · exact absurd hfinal.1 Bool.false_ne_true
  · simp [List.head?_replicate, hrem.ne']
  · simp [List.head?_replicate, Nat.ne_of_gt hn.some_cell]

end

/-! ## The loop gives what the relation gives -/

/-- By induction on the runs: both take the first run as the final high one, or read it as cells, or refuse it. -/
theorem recoverRuns_eq_some_iff {P : Config.Build} (hP : P.Legal) {T : Nat} (hT : 0 < T) (runs : List (Level × Nat)) :
    ∀ cells out : List Level, cells.length < 21 →
      (recoverRuns P T runs cells = some out ↔
        ∃ new, Recovered T (21 - cells.length) runs new ∧ out = cells ++ new) := by
  induction runs with
  | nil =>
    intro cells out _
    rw [recoverRuns]
    exact ⟨(nomatch ·), fun ⟨_, h, _⟩ => nomatch h⟩
  | cons g runs ih =>
    intro cells out hlen
    obtain ⟨L, d⟩ := g
    by_cases hfinal : FinalHigh T (21 - cells.length) (L, d)
    · obtain ⟨rfl, hd⟩ := id hfinal
      rw [recoverRuns_finalHigh hP (by rwa [Nat.mul_assoc])]
      simp [recovered_iff_of_finalHigh hfinal, eq_comm]
    · by_cases hread : ∃ n ≤ 21 - cells.length, ReadsAs T d n
      · obtain ⟨n, hle, hn⟩ := hread
        rw [recoverRuns_of_readsAs hP hT hfinal hn (by omega)]
        obtain rfl | hlt := Nat.eq_or_lt_of_le hle
        · rw [if_pos (by omega)]
          simp [recovered_iff_of_readsAs_all hfinal hn, eq_comm]
        · rw [if_neg (by omega), ih _ _ (by simp; omega)]
          simp [recovered_iff_of_readsAs_fewer hfinal hn hlt, Nat.sub_sub]
      · have hunread : ∀ n ≤ 21 - cells.length, ¬ReadsAs T d n := fun n hle hn => hread ⟨n, hle, hn⟩
        rw [recoverRuns_of_unread hP hT hfinal hunread]
        simp [not_recovered_of_unread hfinal hunread]

theorem recover_eq_some_iff {P : Config.Build} (hP : P.Legal) {samples cells : List Level} {r : Rate} :
    recover P samples r = some cells ↔ Recovered (tcell P r) 21 (runsOf samples) cells := by
  rw [recover, recoverRuns_eq_some_iff hP (tcell_pos hP r) _ _ _ (by simp)]
  simp

/-- Settles O43, by `recover_eq_some_iff`; what the relation gives has the length and the first cell asked for. -/
theorem recoverGivesTwentyOneCells : Obligations.RecoverGivesTwentyOneCells := by
  refine fun P hP samples r => ⟨fun cells => recover_eq_some_iff hP, ?_, fun cells h => ?_⟩
  · simp only [Option.eq_none_iff_forall_ne_some, ne_eq, recover_eq_some_iff hP]
  · rw [recover_eq_some_iff hP] at h
    refine ⟨h.length, fun hlow => ?_⟩
    rw [← runsOf_head?_fst] at hlow
    match hruns : runsOf samples with
    | [] => simp [hruns] at hlow
    | (L, d) :: runs =>
      obtain rfl : L = false := by simpa [hruns] using hlow
      rw [hruns] at h
      exact h.head?_low (by decide)

/-! ## De-framing (R100) -/

/-- Settles O44, by `deframe_getLsbD`. -/
theorem deframeBits : Obligations.DeframeBits := by
  intro cells hlen i hi
  rw [deframe_getLsbD hlen (by omega), show 20 - (19 - i) = 1 + i by omega]

end Sys2Proof.Machine
end

section
/-! PROOFS. RX from its acceptance to its end (R97, R98, R107, R148): the ticks of SWITCH, LISTEN and CAPTURE use up the list of
ticks to come, and the block is busy until the last of them. -/

namespace Sys2Proof.Machine

/-! ## An RX under way -/

/-- `n` ticks lead from `s` to `t`, and the block is busy after each of them. -/
inductive BusyRun (P : Config.Build) (s : State) : Nat → State → Prop where
  | start : BusyRun P s 0 s
  | tick {n : Nat} {t u : State} (h : BusyRun P s n t) (hstep : stepIn P t = .next u) (hbusy : u.busy = true) :
    BusyRun P s (n + 1) u

theorem BusyRun.runTicks_eq {P : Config.Build} {s t : State} {n : Nat} (h : BusyRun P s n t) :
    runTicks P n s = .next t := by
  induction h with
  | start => rfl
  | tick _ hstep _ ih => exact (runTicks_succ_next ih).trans hstep

theorem BusyRun.busy_at {P : Config.Build} {s t : State} {n : Nat} (h : BusyRun P s n t) {j : Nat} (hj : 0 < j)
    (hn : j ≤ n) : ∃ u, runTicks P j s = .next u ∧ u.busy = true := by
  induction h with
  | start => omega
  | tick h hstep hbusy ih =>
    obtain rfl | hlt := Nat.eq_or_lt_of_le hn
    · exact ⟨_, (h.tick hstep hbusy).runTicks_eq, hbusy⟩
    · exact ih (by omega)

/-- The RX accepted in `s` is under way `n` ticks later in `t`, at count `c` of phase `p`, with the ticks `env` to come. -/
structure Receiving (P : Config.Build) (s : State) (n : Nat) (p : Phase) (c : Nat) (env : List TickIn) (t : State) :
    Prop where
  run   : BusyRun P s n t
  kept  : KeptInRx s t
  busy  : t.busy = true
  phase : t.phase = p
  cnt   : t.cnt = c
  env   : t.env = env

section
variable {P : Config.Build} {s t : State} {n c : Nat} {p : Phase} {q : TickIn} {env : List TickIn}

theorem Receiving.pins_eq (h : Receiving P s n p c (q :: env) t) : t.pins = q := State.pins_cons h.env

/-- A tick that leaves RX under way. -/
theorem Receiving.tick (h : Receiving P s n p c (q :: env) t) {p' : Phase} {c' : Nat} {l : List Level}
    (hstep : stepIn P t = .next { t.advance with phase := p', cnt := c', samples := l }) :
    Receiving P s (n + 1) p' c' env { t.advance with phase := p', cnt := c', samples := l } :=
  ⟨h.run.tick hstep h.busy, h.kept.tick _ _ _, h.busy, rfl, rfl, congrArg List.tail h.env⟩

/-- After the step that accepts RX comes the first tick of SWITCH. -/
theorem receiving_of_accepts (h : s.Accepts .rx) (hm : s.mode = .bidirectional) (henv : s.env = q :: env) :
    ∃ t, Receiving P s 1 .switch 0 env t := by
  have hstep := stepIn_of_accepts P h
  rw [execIn_rx, execRx_bidirectional (s := s.accepted) hm] at hstep
  exact ⟨_, .tick .start hstep rfl, ⟨⟨rfl, rfl, rfl, rfl⟩, ⟨rfl, rfl, rfl⟩, rfl⟩, rfl, rfl, rfl, congrArg List.tail henv⟩

/-! ## SWITCH and LISTEN (R97, R98) -/

theorem Receiving.switch_tick (h : Receiving P s n .switch c (q :: env) t) (hq : q.rst = false) :
    ∃ u, (c + 1 ≠ P.tSwitch ∧ Receiving P s (n + 1) .switch (c + 1) env u) ∨
      (c + 1 = P.tSwitch ∧ Receiving P s (n + 1) .listen 0 env u) := by
  have hstep := stepIn_switch (P := P) (h.pins_eq ▸ hq) h.busy h.phase
  obtain rfl := h.cnt
  obtain ⟨hn, hu⟩ | ⟨he, hu⟩ := t.advance.tickSwitch_cases P <;> rw [hu] at hstep
  · exact ⟨_, .inl ⟨hn, h.tick (p' := .switch) (by rw [hstep, ← h.phase]; rfl)⟩⟩
  · exact ⟨_, .inr ⟨he, h.tick hstep⟩⟩

/-- SWITCH passes over its ticks, whatever the wire does in them. -/
theorem Receiving.switch_wait (quiet : List TickIn) (hq : ∀ q ∈ quiet, q.rst = false) (hpos : 0 < quiet.length) :
    ∀ {n c t}, Receiving P s n .switch c (quiet ++ env) t → c + quiet.length = P.tSwitch →
      ∃ u, Receiving P s (n + quiet.length) .listen 0 env u := by
  induction quiet with
  | nil => simp at hpos
  | cons q quiet ih =>
    intro n c t h hlen
    rw [List.length_cons] at hlen ⊢
    obtain ⟨u, ⟨hn, hu⟩ | ⟨he, hu⟩⟩ := h.switch_tick (hq q List.mem_cons_self)
    · rw [show n + (quiet.length + 1) = n + 1 + quiet.length by omega]
      exact ih (fun q hmem => hq q (List.mem_cons_of_mem _ hmem)) (by omega) hu (by omega)
    · obtain rfl : quiet = [] := List.eq_nil_of_length_eq_zero (by omega)
      exact ⟨u, hu⟩

theorem Receiving.listen_high (h : Receiving P s n .listen c (ticksOf [true] ++ env) t) (hc : c + 1 ≠ P.tRxTimeout) :
    ∃ u, Receiving P s (n + 1) .listen (c + 1) env u := by
  have hstep := stepIn_listen (P := P) (h.pins_eq ▸ rfl) h.busy h.phase
  rw [h.pins_eq] at hstep
  obtain rfl := h.cnt
  obtain ⟨hlow, -⟩ | ⟨-, -, hu⟩ | ⟨-, he, -⟩ := t.advance.tickListen_cases P true
  · cases hlow
  · rw [hu] at hstep
    exact ⟨_, h.tick (p' := .listen) (by rw [hstep, ← h.phase]; rfl)⟩
  · exact absurd he hc

/-- LISTEN goes on while the wire is high and the timeout has not come. -/
theorem Receiving.listen_wait (k : Nat) : ∀ {n c t},
    Receiving P s n .listen c (ticksOf (List.replicate k true) ++ env) t → c + k < P.tRxTimeout →
      ∃ u, Receiving P s (n + k) .listen (c + k) env u := by
  induction k with
  | zero => exact fun h _ => ⟨_, h⟩
  | succ k ih =>
    intro n c t h hk
    obtain ⟨u, hu⟩ := h.listen_high (by omega)
    obtain ⟨v, hv⟩ := ih hu (by omega)
    exact ⟨v, by simpa only [Nat.add_assoc, Nat.add_comm 1] using hv⟩

/-- The start edge is the first sample (R98). -/
theorem Receiving.listen_low (h : Receiving P s n .listen c (ticksOf [false] ++ env) t) :
    ∃ u, Receiving P s (n + 1) .capture 1 env u ∧ u.samples = [false] := by
  have hstep := stepIn_listen (P := P) (h.pins_eq ▸ rfl) h.busy h.phase
  rw [h.pins_eq] at hstep
  exact ⟨_, h.tick hstep, rfl⟩

/-! ## CAPTURE (R97) -/

theorem Receiving.capture_tick {l : Level} (h : Receiving P s n .capture c (ticksOf [l] ++ env) t)
    (hc : c + 1 ≠ window P s.rate) :
    ∃ u, Receiving P s (n + 1) .capture (c + 1) env u ∧ u.samples = t.samples ++ [l] := by
  have hstep := stepIn_capture (P := P) (h.pins_eq ▸ rfl) h.busy h.phase
  rw [h.pins_eq] at hstep
  obtain rfl := h.cnt
  obtain ⟨-, hu⟩ | ⟨he, -⟩ := t.advance.tickCapture_cases P l
  · rw [hu] at hstep
    exact ⟨_, h.tick (p' := .capture) (by rw [hstep, ← h.phase]; rfl), rfl⟩
  · exact absurd he (h.kept.config.rate ▸ hc)

/-- CAPTURE appends the levels of its ticks while the window is not full. -/
theorem Receiving.capture_wait (levels : List Level) : ∀ {n c t},
    Receiving P s n .capture c (ticksOf levels ++ env) t → c + levels.length < window P s.rate →
      ∃ u, Receiving P s (n + levels.length) .capture (c + levels.length) env u ∧ u.samples = t.samples ++ levels := by
  induction levels with
  | nil => exact fun h _ => ⟨_, h, by simp⟩
  | cons l levels ih =>
    intro n c t h hc
    rw [List.length_cons] at hc ⊢
    obtain ⟨u, hu, hfirst⟩ := h.capture_tick (by omega)
    obtain ⟨v, hv, hrest⟩ := ih hu (by omega)
    exact ⟨v, by simpa only [Nat.add_assoc, Nat.add_comm 1] using hv, by simp [hrest, hfirst]⟩

/-! ## The end (R98, R101) -/

theorem Receiving.ends_timeout (h : Receiving P s n .listen c (ticksOf [true] ++ env) t) (hc : c + 1 = P.tRxTimeout) :
    ∃ u, runTicks P (n + 1) s = .next u ∧ RxEnds s u .timeout := by
  obtain ⟨u, hu, hends⟩ := stepIn_listen_timeout (P := P) h.kept (h.pins_eq ▸ rfl) h.busy h.phase (h.cnt ▸ hc)
    (h.pins_eq ▸ rfl)
  exact ⟨u, (runTicks_succ_next h.run.runTicks_eq).trans hu, hends⟩

theorem Receiving.ends_capture {l : Level} (h : Receiving P s n .capture c (ticksOf [l] ++ env) t)
    (hc : c + 1 = window P s.rate) :
    ∃ u, runTicks P (n + 1) s = .next u ∧ RxEnds s u (outcomeOf P (answerOf P (t.samples ++ [l]) s.rate)) := by
  have hrate := h.kept.config.rate
  obtain ⟨u, hu, hends⟩ := stepIn_capture_full (P := P) h.kept (h.pins_eq ▸ rfl) h.busy h.phase (by rw [h.cnt, hrate, hc])
  rw [h.pins_eq, hrate] at hends
  exact ⟨u, (runTicks_succ_next h.run.runTicks_eq).trans hu, hends⟩

theorem ticksOf_append (l m : List Level) : ticksOf (l ++ m) = ticksOf l ++ ticksOf m := List.map_append

/-- From acceptance to LISTEN: the accepting tick and those of SWITCH. -/
theorem receiving_listen (h : s.Accepts .rx) (hm : s.mode = .bidirectional) (hP : P.Legal) {quiet : List TickIn}
    (henv : s.env = quiet ++ env) (hlen : quiet.length = 1 + P.tSwitch) (hq : ∀ p ∈ quiet, p.rst = false) :
    ∃ t, Receiving P s (1 + P.tSwitch) .listen 0 env t := by
  have hswitch := hP.tSwitch
  obtain ⟨q, quiet, rfl⟩ := List.exists_cons_of_length_pos (show 0 < quiet.length by omega)
  rw [List.length_cons] at hlen
  obtain ⟨t, ht⟩ := receiving_of_accepts (P := P) h hm henv
  obtain ⟨u, hu⟩ := ht.switch_wait quiet (fun q hmem => hq q (List.mem_cons_of_mem _ hmem)) (by omega) (by omega)
  exact ⟨u, by rwa [show 1 + P.tSwitch = 1 + quiet.length by omega]⟩

end

/-- Settles O40: LISTEN waits for all ticks but the last of the timeout, which ends it. -/
theorem rxTimesOutOnSilence : Obligations.RxTimesOutOnSilence := by
  intro P hP s quiet after hacc hm henv hlen hq
  obtain ⟨k, hk⟩ := Nat.exists_eq_add_of_le' hP.tRxTimeout
  rw [hk, List.replicate_succ', ticksOf_append, List.append_assoc, List.append_assoc] at henv
  obtain ⟨t, ht⟩ := receiving_listen hacc hm hP henv hlen hq
  obtain ⟨u, hu⟩ := ht.listen_wait k (by omega)
  rw [hk]
  exact hu.ends_timeout (by omega)

/-- A reply as its start edge, its last level and the levels between them. -/
theorem exists_levels_of_reply {reply : List Level} (hlow : reply.head? = some false) (hlen : 1 < reply.length) :
    ∃ levels l, reply = [false] ++ (levels ++ [l]) := by
  obtain ⟨rest, rfl⟩ := List.head?_eq_some_iff.mp hlow
  obtain rfl | ⟨levels, l, rfl⟩ := List.eq_nil_or_concat' rest
  · simp at hlen
  · exact ⟨levels, l, rfl⟩

/-- Settles O39: SWITCH passes, LISTEN waits for `k` ticks, and CAPTURE takes the reply, the last level of which ends it. -/
theorem rxTicksMatchAbstraction : Obligations.RxTicksMatchAbstraction := by
  intro P hP s quiet after k reply hacc hm henv hlen hq hk hreply hlow
  obtain ⟨levels, l, rfl⟩ := exists_levels_of_reply hlow (hreply ▸ one_lt_window hP s.rate)
  simp only [List.length_append, List.length_singleton] at hreply
  simp only [ticksOf_append, List.append_assoc] at henv
  obtain ⟨t, ht⟩ := receiving_listen hacc hm hP henv hlen hq
  obtain ⟨u, hu⟩ := ht.listen_wait k (by omega)
  obtain ⟨v, hv, hedge⟩ := hu.listen_low
  obtain ⟨w, hw, hsamples⟩ := hv.capture_wait levels (by omega)
  obtain ⟨x, hx, hends⟩ := hw.ends_capture (by omega)
  rw [hsamples, hedge, List.append_assoc] at hends
  refine ⟨fun j hpos hj => hw.run.busy_at hpos (by omega), x, ?_, hends⟩
  rw [← hx]
  congr 1
  omega

end Sys2Proof.Machine
end

section
/-! PROOFS. The fault (R17, R105, R112, R122): a step with another value of it ends in the same state but for the flag, which
says what alone sets and clears it. -/

namespace Sys2Proof.Machine

/-- `s` with another value of the fault. -/
def State.withFault (s : State) (b : Bool) : State := { s with fault := b }

/-! ## Acceptance (R112, R122) -/

section
variable (P : Config.Build) (s : State) (b : Bool)

/-- No operation but REINIT reads or writes the fault. -/
theorem execIn_withFault {i : Instr} (hi : i ≠ .reinit) :
    ∃ t, execIn P i s = .next t ∧ execIn P i (s.withFault b) = .next (t.withFault b) := by
  cases i with
  | reinit => exact absurd rfl hi
  | crc4 => exact ⟨_, rfl, rfl⟩
  | encThrottle => simp only [execIn_encThrottle, encThrottleIn]; split <;> exact ⟨_, rfl, rfl⟩
  | encCommand =>
    simp only [execIn_encCommand, encCommandIn, State.withFault]; (repeat' split) <;> exact ⟨_, rfl, rfl⟩
  | decFrame => simp only [execIn_decFrame, decFrameIn, State.withFault]; split <;> exact ⟨_, rfl, rfl⟩
  | gcrDecode => simp only [execIn_gcrDecode, gcrDecodeIn]; split <;> exact ⟨_, rfl, rfl⟩
  | gcrEncode => exact ⟨_, rfl, rfl⟩
  | decTelemetry => simp only [execIn_decTelemetry, decTelemetryIn]; split <;> exact ⟨_, rfl, rfl⟩
  | tx => simp only [execIn_tx, execTx, State.withFault]; split <;> exact ⟨_, rfl, rfl⟩
  | rx => simp only [execIn_rx, execRx, State.withFault]; split <;> exact ⟨_, rfl, rfl⟩
  | classify => simp only [execIn_classify, classifyIn, State.withFault]; (repeat' split) <;> exact ⟨_, rfl, rfl⟩
  | config => simp only [execIn_config, configIn]; split <;> exact ⟨_, rfl, rfl⟩
  | claim => simp only [execIn_claim, execClaim, State.withFault]; split <;> exact ⟨_, rfl, rfl⟩

/-- REINIT clears the fault whatever it was. -/
theorem execIn_reinit_withFault :
    ∃ t, execIn P .reinit s = .next t ∧ execIn P .reinit (s.withFault b) = .next (t.withFault false) :=
  ⟨_, rfl, rfl⟩

/-! ## The ticks (R105) -/

theorem State.nextBit_withFault : (s.withFault b).nextBit P = (s.nextBit P).withFault b := by
  rw [State.nextBit, State.nextBit, apply_ite (State.withFault · b), apply_ite (State.withFault · b)]
  rfl

theorem State.tickTx_withFault : (s.withFault b).tickTx P = (s.tickTx P).withFault b := by
  rw [State.tickTx, State.tickTx, apply_ite (State.withFault · b), ← State.nextBit_withFault]
  rfl

theorem State.tickTrail_withFault : (s.withFault b).tickTrail P = (s.tickTrail P).withFault b := by
  rw [State.tickTrail, State.tickTrail, apply_ite (State.withFault · b)]
  rfl

theorem State.tickSwitch_withFault : (s.withFault b).tickSwitch P = (s.tickSwitch P).withFault b := by
  rw [State.tickSwitch, State.tickSwitch, apply_ite (State.withFault · b)]
  rfl

theorem State.tickListen_withFault (l : Level) : (s.withFault b).tickListen P l = (s.tickListen P l).withFault b := by
  rw [State.tickListen, State.tickListen, apply_ite (State.withFault · b), apply_ite (State.withFault · b)]
  rfl

end

/-- RX has ended in `t` with a CRC failure that trips the fault (R105). -/
def State.Tripped (t : State) : Prop :=
  t.RaisedWith .crcMismatch ∧ t.thresh ≠ 0#8 ∧ t.thresh.toNat ≤ t.crcFail.toNat

/-- The end of RX keeps the fault, or sets it whatever it was. -/
theorem State.finishRx_withFault (s : State) (b : Bool) (o : RxOutcome) :
    ∃ c, (s.withFault b).finishRx o = (s.finishRx o).withFault c ∧ (c = b ∨ (c = true ∧ (s.finishRx o).Tripped)) := by
  cases o with
  | crcMismatch =>
    refine ⟨b || tripsFault s.thresh (satIncr s.crcFail), rfl, ?_⟩
    cases htrip : tripsFault s.thresh (satIncr s.crcFail) with
    | false => exact .inl (Bool.or_false b)
    | true => exact .inr ⟨Bool.or_true b, ⟨rfl, rfl, rfl, rfl, rfl, rfl⟩, (tripsFault_iff _ _).mp htrip⟩
  | _ => exact ⟨b, rfl, .inl rfl⟩

theorem State.tickCapture_withFault (P : Config.Build) (s : State) (b : Bool) (l : Level) :
    ∃ c, (s.withFault b).tickCapture P l = (s.tickCapture P l).withFault c ∧
      (c = b ∨ (c = true ∧ (s.tickCapture P l).Tripped)) := by
  by_cases hc : s.cnt + 1 = window P s.rate
  · obtain ⟨c, hend, hfault⟩ := State.finishRx_withFault { s with samples := s.samples ++ [l], cnt := s.cnt + 1 } b
      (outcomeOf P (answerOf P (s.samples ++ [l]) s.rate))
    rw [show s.tickCapture P l = _ from if_pos hc]
    exact ⟨c, (if_pos hc).trans hend, hfault⟩
  · rw [show s.tickCapture P l = _ from if_neg hc]
    exact ⟨b, if_neg hc, .inl rfl⟩

/-! ## The step -/

/-- What the fault is after the step from `s` to `t` if it was `b` before it: `c`. -/
def FaultAfter (s t : State) (b c : Bool) : Prop :=
  (s.pins.rst = true ∨ s.Accepts .reinit → c = false) ∧
    (¬(s.pins.rst = true ∨ s.Accepts .reinit) → c = b ∨ (c = true ∧ s.phase = .capture ∧ t.Tripped))

section
variable {P : Config.Build} {s t : State} {b c : Bool}

theorem faultAfter_cleared (h : s.pins.rst = true ∨ s.Accepts .reinit) : FaultAfter s t b false :=
  ⟨fun _ => rfl, fun hno => absurd h hno⟩

theorem faultAfter_of_not_cleared (hrst : s.pins.rst = false) (hre : ¬s.Accepts .reinit)
    (h : c = b ∨ (c = true ∧ s.phase = .capture ∧ t.Tripped)) : FaultAfter s t b c := by
  refine ⟨?_, fun _ => h⟩
  rintro (hr | hacc)
  · simp [hrst] at hr
  · exact absurd hacc hre

/-- The port has one word, and the word one operation. -/
theorem State.Accepts.decode_eq {i : Instr} {w : Word} (h : s.Accepts i) (hw : s.presented = some w) :
    decode w = .ok i := by
  obtain ⟨-, v, hv, hd⟩ := h
  rwa [Option.some.inj (hw.symm.trans hv)]

/-- A step in IDLE that does not stop is one of a ready block. -/
theorem ready_of_stepIn_idle (hrst : s.pins.rst = false) (hp : s.phase = .idle) (h : stepIn P s = .next t) :
    s.Ready := by
  refine ⟨hrst, Bool.eq_false_of_not_eq_true fun hb => ?_, hp⟩
  simp [stepIn_busy_idle hrst hb hp] at h

theorem stepIn_accepts_withFault {i : Instr} (hacc : s.Accepts i) (h : stepIn P s = .next t) (b : Bool) :
    ∃ c, stepIn P (s.withFault b) = .next (t.withFault c) ∧ FaultAfter s t b c := by
  obtain ⟨⟨hr, hb, hp⟩, w, hw, hd⟩ := id hacc
  have hstep := stepIn_of_accepts P (s := s.withFault b) ⟨⟨hr, hb, hp⟩, w, hw, hd⟩
  rw [stepIn_of_accepts P hacc] at h
  by_cases hi : i = .reinit
  · subst hi
    cases h
    exact ⟨false, hstep, faultAfter_cleared (.inr hacc)⟩
  · obtain ⟨u, hu, hu'⟩ := execIn_withFault P s.accepted b hi
    obtain rfl : u = t := Host.Outcome.next.inj (hu.symm.trans h)
    refine ⟨b, hstep.trans hu', faultAfter_of_not_cleared hr (fun hre => hi ?_) (.inl rfl)⟩
    exact Except.ok.inj (hd.symm.trans (hre.decode_eq hw))

/-- At the port (R34): no word, a word without an operation, or an operation that is accepted. -/
theorem stepIn_port_withFault (hready : s.Ready) (h : stepIn P s = .next t) (b : Bool) :
    ∃ c, stepIn P (s.withFault b) = .next (t.withFault c) ∧ FaultAfter s t b c := by
  have hstep := stepIn_ready (P := P) (s := s.withFault b) ⟨hready.rst, hready.busy, hready.phase⟩
  cases hw : s.presented with
  | none =>
    rw [stepIn_ready hready, hw] at h
    cases h
    rw [show (s.withFault b).presented = none from hw] at hstep
    exact ⟨b, hstep, faultAfter_of_not_cleared hready.rst (fun ⟨_, _, hv, _⟩ => nomatch hw.symm.trans hv) (.inl rfl)⟩
  | some w =>
    cases hd : decode w with
    | error e =>
      simp only [stepIn_ready hready, hw, runWord, hd] at h
      cases h
      simp only [show (s.withFault b).presented = some w from hw, runWord, hd] at hstep
      exact ⟨b, hstep,
        faultAfter_of_not_cleared hready.rst (fun hre => nomatch hd.symm.trans (hre.decode_eq hw)) (.inl rfl)⟩
    | ok i => exact stepIn_accepts_withFault ⟨hready, w, hw, hd⟩ h b

/-- While the driver is at work the tick of each phase keeps the fault, but for the end of CAPTURE. -/
theorem stepIn_driver_withFault (hrst : s.pins.rst = false) (hp : s.phase ≠ .idle) (h : stepIn P s = .next t)
    (b : Bool) : ∃ c, stepIn P (s.withFault b) = .next (t.withFault c) ∧
      (c = b ∨ (c = true ∧ s.phase = .capture ∧ t.Tripped)) := by
  obtain ⟨hb, ⟨hq, rfl⟩ | ⟨hq, rfl⟩ | ⟨hq, rfl⟩ | ⟨hq, rfl⟩ | ⟨hq, rfl⟩⟩ := stepIn_driver_cases hrst hp h
  · rw [stepIn_tx (s := s.withFault b) hrst hb hq]
    exact ⟨b, congrArg _ (s.advance.tickTx_withFault P b), .inl rfl⟩
  · rw [stepIn_trail (s := s.withFault b) hrst hb hq]
    exact ⟨b, congrArg _ (s.advance.tickTrail_withFault P b), .inl rfl⟩
  · rw [stepIn_switch (s := s.withFault b) hrst hb hq]
    exact ⟨b, congrArg _ (s.advance.tickSwitch_withFault P b), .inl rfl⟩
  · rw [stepIn_listen (s := s.withFault b) hrst hb hq]
    exact ⟨b, congrArg _ (s.advance.tickListen_withFault P b _), .inl rfl⟩
  · rw [stepIn_capture (s := s.withFault b) hrst hb hq]
    obtain ⟨c, hend, hfault⟩ := s.advance.tickCapture_withFault P b s.pins.lineIn
    exact ⟨c, congrArg _ hend, hfault.imp_right fun ⟨hset, htrip⟩ => ⟨hset, hq, htrip⟩⟩

/-- A step with another value of the fault: the same next state but for the fault. -/
theorem stepIn_withFault (h : stepIn P s = .next t) (b : Bool) :
    ∃ c, stepIn P (s.withFault b) = .next (t.withFault c) ∧ FaultAfter s t b c := by
  by_cases hrst : s.pins.rst = true
  · rw [stepIn_reset hrst] at h
    cases h
    exact ⟨false, stepIn_reset (s := s.withFault b) hrst, faultAfter_cleared (.inl hrst)⟩
  · have hrst' : s.pins.rst = false := by simpa using hrst
    by_cases hp : s.phase = .idle
    · exact stepIn_port_withFault (ready_of_stepIn_idle hrst' hp h) h b
    · obtain ⟨c, hc, hfault⟩ := stepIn_driver_withFault hrst' hp h b
      exact ⟨c, hc, faultAfter_of_not_cleared hrst' (fun hacc => hp hacc.1.phase) hfault⟩

end

/-- Settles O60, by `execIn_withFault` and `execIn_reinit_withFault` at acceptance and `stepIn_withFault` in every tick. -/
theorem faultStopsNoOperation : Obligations.FaultStopsNoOperation := by
  refine ⟨fun i s b => ?_, fun s t b h => ?_⟩
  · rw [exec_eq_execIn, exec_eq_execIn]
    by_cases hi : i = .reinit
    · subst hi
      exact execIn_reinit_withFault _ s b
    · rw [if_neg hi]
      exact execIn_withFault _ s b hi
  · rw [step_eq_stepIn] at h ⊢
    exact stepIn_withFault h b

/-- Settles O55: the step with the fault's own value is `stepIn_withFault`'s, so the fault after it is the `c` of
`FaultAfter`. -/
theorem faultChangesOnlyAsSpecified : Obligations.FaultChangesOnlyAsSpecified := by
  intro s t h
  rw [step_eq_stepIn] at h
  obtain ⟨c, hc, hcleared, hkept⟩ := stepIn_withFault h s.fault
  have hfault : t.fault = c := congrArg State.fault (Host.Outcome.next.inj (h.symm.trans hc))
  rw [← hfault] at hcleared hkept
  refine ⟨fun hs ht => by_contra fun hno => ?_, fun hs ht => ?_⟩
  · obtain hsame | ⟨hset, -⟩ := hkept hno
    · simp [hs, ht] at hsame
    · simp [ht] at hset
  · obtain hsame | ⟨-, hp, htrip⟩ := hkept fun hclear => by simp [hcleared hclear] at ht
    · simp [hs, ht] at hsame
    · exact ⟨hp, htrip⟩

end Sys2Proof.Machine
end

section
/-! PROOFS. The control operations CONFIG, CLAIM and REINIT (R109 to R112): what each makes of any state. -/

namespace Sys2Proof.Machine

/-! ## CFG as a number (R20) -/

/-- Each field of CFG with the weight of its lowest bit. -/
theorem State.cfgWord_eq_ofNat (s : State) :
    s.cfgWord =
      BitVec.ofNat 32 (256 * s.thresh.toNat + 8 * s.edtAdv.toNat + 4 * s.mode.bit.toNat + s.rate.code.toNat) := by
  have hword : s.cfgWord.toNat =
      256 * s.thresh.toNat + 8 * s.edtAdv.toNat + 4 * s.mode.bit.toNat + s.rate.code.toNat := by
    simp only [State.cfgWord, toNat_append_eq_add, BitVec.toNat_ofBool, BitVec.toNat_ofNat]
    omega
  rw [← hword, BitVec.ofNat_toNat, BitVec.setWidth_eq]

/-! ## CONFIG (R109, R110) -/

/-- The idle level of a mode on the wire is its bit (R84). -/
theorem State.driven_drive_idle (s : State) : (s.drive false).driven = some s.mode.bit := by
  simp [State.driven]

section
variable {P : Config.Build} {r : Rate} {m : Mode}

theorem configIn_of_configLegal (a : Bool) (n : BitVec 8) (s : State) (h : configLegal P r m = true) :
    configIn P r m a n s =
      .next (({ s with rate := r, mode := m, edtAdv := a, thresh := n }.drive false).complete 0#32) := by
  simp [configIn, h]

theorem configIn_of_not_configLegal (a : Bool) (n : BitVec 8) (s : State) (h : configLegal P r m = false) :
    configIn P r m a n s = .next (s.raise .invalidConfig) := by
  simp [configIn, h]

end

/-- Settles O46: the check of CONFIG is `configLegal_iff`, and the word of the new fields is `cfgWord_eq_ofNat`. -/
theorem configResult : Obligations.ConfigResult := by
  intro r m a n s
  rw [exec_config, execConfig, ← configLegal_iff build_legal]
  cases hok : configLegal Config.build r m with
  | true =>
    refine ⟨_, configIn_of_configLegal a n s hok, fun hill => ?_, fun _ => ?_⟩
    · exact absurd hill ((configLegal_iff build_legal r m).mp hok)
    · exact ⟨State.complete_completedWith _ _, rfl, rfl, rfl, rfl, State.cfgWord_eq_ofNat _, State.driven_drive_idle _,
        rfl, ⟨rfl, rfl, rfl⟩, ⟨rfl, rfl, rfl, rfl⟩, ⟨rfl, rfl⟩⟩
  | false =>
    exact ⟨_, configIn_of_not_configLegal a n s hok, fun _ => ⟨s.raise_raisedWith _, s.raise_untouched _⟩, nofun⟩

/-! ## CLAIM (R111) -/

theorem execClaim_of_not_owned {s : State} (h : s.owned = false) :
    execClaim s = .next ({ s with owned := true }.complete 0#32) := by
  simp [execClaim, h]

theorem execClaim_of_owned {s : State} (h : s.owned = true) : execClaim s = .next (s.raise .resourceBusy) := by
  simp [execClaim, h]

/-- Settles O47, by the one bit CLAIM reads. -/
theorem claimResult : Obligations.ClaimResult := by
  intro s
  rw [exec_claim]
  cases howned : s.owned with
  | false =>
    exact ⟨_, execClaim_of_not_owned howned, fun _ => ⟨State.complete_completedWith _ _, rfl, ⟨rfl, rfl, rfl, rfl⟩,
      ⟨rfl, rfl, rfl⟩, ⟨rfl, rfl⟩, ⟨rfl, rfl, rfl, rfl⟩, ⟨rfl, rfl⟩⟩, nofun⟩
  | true =>
    exact ⟨_, execClaim_of_owned howned, nofun, fun _ => ⟨s.raise_raisedWith _, s.raise_untouched _⟩⟩

/-! ## REINIT (R112) -/

/-- Settles O48: REINIT is the completion of three cleared fields, in every state. -/
theorem reinitResult : Obligations.ReinitResult := fun _ =>
  ⟨_, rfl, State.complete_completedWith _ _, rfl, rfl, rfl, rfl, ⟨rfl, rfl, rfl, rfl⟩, ⟨rfl, rfl⟩,
    ⟨rfl, rfl, rfl, rfl⟩, ⟨rfl, rfl⟩⟩

end Sys2Proof.Machine
end
